-- ==== Sys2Proof/Word.lean ====
section
/-! DEFINITION. The word types of the part's packets, records and rows. -/

namespace Sys2Proof

/-- One byte of a packet, record or row (chapter 11). -/
abbrev Byte := BitVec 8

/-- A u16 field. -/
abbrev Half := BitVec 16

/-- A u32 field. -/
abbrev Word := BitVec 32

/-- The bytes of a packet, payload or row, in transmission order. -/
abbrev Bytes := List Byte

end Sys2Proof
end

