-- ==== Sys2Proof/Config.lean ====
section
/-! DEFINITION. What the part as built fixes, and the free values: constants without a body, which no proof can read. -/

namespace Sys2Proof

/-- The revision number of the part less one: R171 gives only its range 1..255 (log entry 6). -/
opaque Config.revisionLessOne : Fin 255

/-- The revision byte of IDENTIFY (R171), 1..255. -/
def Config.revision : Byte := BitVec.ofNat 8 (Config.revisionLessOne.val + 1)

/-- GET_STATUS byte 1, bits 3 to 5 (phase and cause), when no transition is in flight: the layout of
chapter 11 states no value for them (log entry 7). -/
opaque Config.freeTransitionBits : Nat → BitVec 3

/-- GET_STATUS bytes 36 to 39 (first row, count, cursor, rows written) when no load is open: the
layout of chapter 11 states no value for them (log entry 7). -/
opaque Config.freeLoadBytes : Nat → Word

end Sys2Proof
end

