-- ==== Sys2Proof/Syntax.lean ====
section
/-! DEFINITION. The steps of the part: one constructor of `Instr` for each row of spec/opcode_table.json. -/

namespace Sys2Proof

/-- The two surfaces, and the sensor link of each: the pad link serves PAD, the panel link serves PANEL (00). -/
inductive Surface where
  | pad
  | panel
deriving DecidableEq, Repr

/-- The five tables (07), in the order POSTURE, ZONE, CLASS, GESTURE, PEN. -/
inductive Table where
  | posture
  | zone
  | cls
  | gesture
  | pen
deriving DecidableEq, Repr

/-- The surfaces whose sense-frame operation has a request waiting at the slot allocator (R25). -/
inductive Requesters where
  | pad
  | panel
  | both
deriving DecidableEq, Repr

/-- The steps of the part. A packet of a sensor link is its received run of bytes (section 1.1); a
management command is its payload, taken from a packet that passed R165 on channel CONTROL. -/
inductive Instr where
  /-- SENSE_FRAME (R5). -/
  | senseFrame (link : Surface) (bytes : Bytes)
  /-- PEN_FRAME (R5). -/
  | penFrame (link : Surface) (bytes : Bytes)
  /-- SCAN_ACK (R138). -/
  | scanAck (link : Surface) (bytes : Bytes)
  /-- WAKE (R145). -/
  | wake (link : Surface) (bytes : Bytes)
  /-- ID_REPLY (R140). -/
  | idReply (link : Surface) (bytes : Bytes)
  /-- PASS_UP (R12). -/
  | passUp (link : Surface) (bytes : Bytes)
  /-- STALL_WATCH_EXPIRY (R9). -/
  | stallWatchExpiry (link : Surface)
  /-- IDENTITY_REPLY_TIMEOUT (R140). -/
  | identityReplyTimeout (link : Surface)
  /-- SCAN_SETTLE_TIMEOUT (R138). -/
  | scanSettleTimeout (link : Surface)
  /-- TRANSMISSION_COMPLETE (R16). -/
  | transmissionComplete (link : Surface)
  /-- SENSE_FRAME_TAKE (R21). -/
  | senseFrameTake (surface : Surface)
  /-- SLOT_REQUEST (R25). -/
  | slotRequest (who : Requesters)
  /-- SENSE_FRAME_COMPLETION (R35). -/
  | senseFrameCompletion (surface : Surface)
  /-- FORCED_END (R37). -/
  | forcedEnd (surface : Surface)
  /-- PEN_FRAME_TAKE (R60). -/
  | penFrameTake
  /-- PEN_FRAME_COMPLETION (R65). -/
  | penFrameCompletion
  /-- PEN_DROP (R72). -/
  | penDrop
  /-- LINGER_EXPIRY (R68). -/
  | lingerExpiry
  /-- KEYACT (R88). -/
  | keyact
  /-- TYPING_GUARD_EXPIRY (R88). -/
  | typingGuardExpiry
  /-- BTN_PRESS (R54). -/
  | btnPress
  /-- BTN_RELEASE (R112). -/
  | btnRelease
  /-- AUTO_IDLE_EXPIRY (R142). -/
  | autoIdleExpiry
  /-- WAKE_DWELL_EXPIRY (R146). -/
  | wakeDwellExpiry
  /-- WAKE_PHASE_END (R141). -/
  | wakePhaseEnd
  /-- TRANSITION_COMPLETE (R139). -/
  | transitionComplete
  /-- SET_MODE_START (R147). -/
  | setModeStart
  /-- SWAP (R126). -/
  | swap
  /-- COPY_END (R127). -/
  | copyEnd (table : Table)
  /-- VERIFY_PASS_END (R130). -/
  | verifyPassEnd
  /-- LOAD_STEP_TIMEOUT (R122). -/
  | loadStepTimeout
  /-- QUEUED_RESPONSE_ENTRY (R160). -/
  | queuedResponseEntry
  /-- READ_TRANSFER_TAKEN (R167). -/
  | readTransferTaken
  /-- READ_TRANSFER_END (R161); `clocked` is the number of packet bytes clocked out whole. -/
  | readTransferEnd (clocked : Nat)
  /-- IGNORED_TRANSFER (R164); `first` is the transfer byte. -/
  | ignoredTransfer (first : Byte)
  /-- PASS_DOWN (R13). -/
  | passDown (link : Surface) (kind : BitVec 6) (payload : Bytes)
  /-- UNKNOWN (R169). -/
  | unknown (kind : BitVec 6) (payload : Bytes)
  /-- IDENTIFY (R171). -/
  | identify (payload : Bytes)
  /-- GET_STATUS (R173). -/
  | getStatus (payload : Bytes)
  /-- SET_MODE (R147). -/
  | setMode (payload : Bytes)
  /-- SET_POSTURE (R42). -/
  | setPosture (payload : Bytes)
  /-- SET_NOTICES (R174). -/
  | setNotices (payload : Bytes)
  /-- LOAD_BEGIN (R119). -/
  | loadBegin (payload : Bytes)
  /-- LOAD_ROWS (R120). -/
  | loadRows (payload : Bytes)
  /-- LOAD_END (R121). -/
  | loadEnd (payload : Bytes)
  /-- LOAD_ABORT (R122). -/
  | loadAbort (payload : Bytes)
  /-- COMMIT (R124). -/
  | commit (payload : Bytes)
  /-- REVERT (R128). -/
  | revert (payload : Bytes)
  /-- READ_ROWS (R129). -/
  | readRows (payload : Bytes)
  /-- VERIFY (R130). -/
  | verify (payload : Bytes)
  /-- LOCK_ZONES (R134). -/
  | lockZones (payload : Bytes)
  /-- CLEAR_COUNTERS (R175). -/
  | clearCounters (payload : Bytes)
  /-- SOFT_RESET (R172). -/
  | softReset (payload : Bytes)
  /-- SOFT_RESET_EFFECT (R149). -/
  | softResetEffect
  /-- RESET_N_ASSERT (R148). -/
  | resetNAssert
  /-- RESET_N_RELEASE (R148). -/
  | resetNRelease
  /-- POWER_ON_RESET (R148). -/
  | powerOnReset
  /-- DISCARDED_WRITE_TRANSFER (R165); `bytes` are those collected after the transfer byte. -/
  | discardedWriteTransfer (bytes : Bytes)
deriving DecidableEq, Repr

end Sys2Proof
end

