-- ==== Sys2Proof/Machine/Wire.lean ====
section
/-! DEFINITION. The frame of a link packet and the two CRCs (chapter 11, R176), and little-endian fields. -/

namespace Sys2Proof.Machine

/-- Byte `i` of a payload or row; a byte past its end reads as 0, and every caller has tested the length. -/
def byteAt (bs : Bytes) (i : Nat) : Byte := bs.getD i 0

/-- The u8 field at offset `i`. -/
def u8At (bs : Bytes) (i : Nat) : Nat := (byteAt bs i).toNat

/-- The u16 field at offset `i`, least significant byte first (R176). -/
def u16At (bs : Bytes) (i : Nat) : Nat := u8At bs i + 256 * u8At bs (i + 1)

/-- The u32 field at offset `i`, least significant byte first (R176). -/
def u32At (bs : Bytes) (i : Nat) : Nat := u16At bs i + 65536 * u16At bs (i + 2)

/-- Bit `k` of the flags byte at offset `i` (R176). -/
def flagAt (bs : Bytes) (i k : Nat) : Bool := (byteAt bs i).getLsbD k

/-- A u8 field as sent. -/
def putU8 (n : Nat) : Bytes := [BitVec.ofNat 8 n]

/-- A u16 field as sent (R176). -/
def putU16 (n : Nat) : Bytes := [BitVec.ofNat 8 n, BitVec.ofNat 8 (n / 256)]

/-- A u32 field as sent (R176). -/
def putU32 (n : Nat) : Bytes := putU16 n ++ putU16 (n / 65536)

/-- An s16 field as sent, two's complement (R176). -/
def putS16 (i : Int) : Bytes := putU16 (BitVec.ofInt 16 i).toNat

/-- A byte of flags, the first in bit 0 (R176). -/
def putFlags (fs : List Bool) : Bytes :=
  putU8 (fs.foldr (fun b acc => b.toNat + 2 * acc) 0)

/-- Eight shifts of the CRC-8 register, generator x⁸ + x² + x + 1 (R176). -/
def crc8Shift : Nat → Byte → Byte
  | 0, c => c
  | n + 1, c => crc8Shift n (if c.getLsbD 7 then (c <<< 1) ^^^ 0x07#8 else c <<< 1)

/-- One byte into the CRC-8, most significant bit first (R176). -/
def crc8Byte (c b : Byte) : Byte := crc8Shift 8 (c ^^^ b)

/-- The CRC-8 of a link packet over its header and payload, initial value 0x00 (R176). -/
def crc8 (bs : Bytes) : Byte := bs.foldl crc8Byte 0x00#8

/-- Eight shifts of the CRC-32 register in its reflected form, generator 0x04C11DB7 (R176). -/
def crc32Shift : Nat → Word → Word
  | 0, c => c
  | n + 1, c => crc32Shift n (if c.getLsbD 0 then (c >>> 1) ^^^ 0xEDB88320#32 else c >>> 1)

/-- One byte into the running CRC-32, least significant bit first (R176). -/
def crc32Byte (c : Word) (b : Byte) : Word := crc32Shift 8 (c ^^^ b.setWidth 32)

/-- The running CRC-32's initial value (R176). -/
def crc32Init : Word := 0xFFFFFFFF#32

/-- Row bytes folded into the running CRC-32 in the order received (R120). -/
def crc32Fold (c : Word) (bs : Bytes) : Word := bs.foldl crc32Byte c

/-- The final inversion of all 32 bits (R176). -/
def crc32Final (c : Word) : Word := ~~~c

/-- The first header byte: channel in bits 7 to 6, kind in bits 5 to 0 (11.2). -/
def headerByte (channel : BitVec 2) (kind : BitVec 6) : Byte := channel ++ kind

/-- The channel part of a packet's header (11.2). -/
def channelOf (bs : Bytes) : BitVec 2 := (byteAt bs 0).extractLsb' 6 2

/-- The kind part of a packet's header (11.2). -/
def kindOf (bs : Bytes) : BitVec 6 := (byteAt bs 0).extractLsb' 0 6

/-- The payload of a packet of the declared length. -/
def payloadOf (bs : Bytes) : Bytes := (bs.drop 2).take (u8At bs 1)

/-- The bytes of a packet with header, payload and CRC-8 (11.2). -/
def packetBytes (channel : BitVec 2) (kind : BitVec 6) (payload : Bytes) : Bytes :=
  let head := headerByte channel kind :: BitVec.ofNat 8 payload.length :: payload
  head ++ [crc8 head]

/-- R1's length test: the bytes received number the declared payload length plus three. -/
def lengthOk (bs : Bytes) : Bool := decide (2 ≤ bs.length) && decide (bs.length = u8At bs 1 + 3)

/-- R1's CRC test over the received header and payload. -/
def crcOk (bs : Bytes) : Bool := crc8 (bs.take (u8At bs 1 + 2)) == byteAt bs (u8At bs 1 + 2)

/-- A well-framed packet: it passes both checks of R1. -/
def wellFramed (bs : Bytes) : Bool := lengthOk bs && crcOk bs

/-- What R165 makes of the bytes collected by a write transfer. -/
inductive Judged where
  /-- Fewer than two bytes, or fewer than the declared length plus three. -/
  | short
  /-- The CRC-8 differs. -/
  | crc
  /-- The packet is taken. -/
  | taken (channel : BitVec 2) (kind : BitVec 6) (payload : Bytes)
deriving DecidableEq, Repr

/-- R165: the judgement of a write transfer at its CS_N rise; bytes beyond the first n + 3 are fill. -/
def judgeWrite (bs : Bytes) : Judged :=
  if bs.length < 2 ∨ bs.length < u8At bs 1 + 3 then .short
  else if crcOk bs then .taken (channelOf bs) (kindOf bs) (payloadOf bs)
  else .crc

/-! The codes of chapter 11. -/

/-- The kind code SENSE_FRAME. -/
def kindSenseFrame : BitVec 6 := 0x01#6
/-- The kind code PEN_FRAME. -/
def kindPenFrame : BitVec 6 := 0x02#6
/-- The kind code SCAN_ACK. -/
def kindScanAck : BitVec 6 := 0x03#6
/-- The kind code WAKE. -/
def kindWake : BitVec 6 := 0x04#6
/-- The kind code ID_REPLY. -/
def kindIdReply : BitVec 6 := 0x05#6
/-- The kind code SCAN_CONTROL. -/
def kindScanControl : BitVec 6 := 0x10#6
/-- The kind code ID_QUERY. -/
def kindIdQuery : BitVec 6 := 0x11#6

/-- The channel value of a sensor link: PAD_AFE or PANEL_AFE (11.2). -/
def linkChannel : Surface → BitVec 2
  | .pad => 1#2
  | .panel => 2#2

/-- The channel value CONTROL (11.2). -/
def controlChannel : BitVec 2 := 0#2

/-- The transfer byte that chooses WRITE (11.2). -/
def writeCode : Byte := 0x5A#8
/-- The transfer byte that chooses READ (11.2). -/
def readCode : Byte := 0xA5#8
/-- The fill value that the port drives on MISO where it drives no packet byte (11.2). -/
def fillByte : Byte := 0xFF#8

/-- The kinds a front-end may send that the part consumes (R2). -/
def consumedKind (k : BitVec 6) : Bool :=
  k == kindSenseFrame || k == kindPenFrame || k == kindScanAck || k == kindWake || k == kindIdReply

/-- The management commands of section 11.4. -/
inductive Command where
  | identify
  | getStatus
  | setMode
  | setPosture
  | setNotices
  | loadBegin
  | loadRows
  | loadEnd
  | loadAbort
  | commit
  | revert
  | readRows
  | verify
  | lockZones
  | clearCounters
  | softReset
deriving DecidableEq, Repr

/-- The kind code of a management command (11.4). -/
def Command.code : Command → BitVec 6
  | .identify => 0x01#6
  | .getStatus => 0x02#6
  | .setMode => 0x03#6
  | .setPosture => 0x04#6
  | .setNotices => 0x05#6
  | .loadBegin => 0x08#6
  | .loadRows => 0x09#6
  | .loadEnd => 0x0A#6
  | .loadAbort => 0x0B#6
  | .commit => 0x0C#6
  | .revert => 0x0D#6
  | .readRows => 0x0E#6
  | .verify => 0x0F#6
  | .lockZones => 0x10#6
  | .clearCounters => 0x11#6
  | .softReset => 0x3F#6

/-- The one payload length a command accepts; none where it accepts any (11.4, R169). -/
def Command.length : Command → Option Nat
  | .identify => some 0
  | .getStatus => some 0
  | .setMode => some 3
  | .setPosture => some 1
  | .setNotices => some 6
  | .loadBegin => some 3
  | .loadRows => none
  | .loadEnd => some 4
  | .loadAbort => some 0
  | .commit => some 1
  | .revert => some 1
  | .readRows => some 4
  | .verify => some 1
  | .lockZones => some 1
  | .clearCounters => some 0
  | .softReset => none

/-- Whether a payload's length is one the command accepts (R169). -/
def Command.lengthOk (c : Command) (payload : Bytes) : Bool :=
  match c.length with
  | some n => payload.length == n
  | none => true

/-- All management commands. -/
def Command.all : List Command :=
  [.identify, .getStatus, .setMode, .setPosture, .setNotices, .loadBegin, .loadRows, .loadEnd,
   .loadAbort, .commit, .revert, .readRows, .verify, .lockZones, .clearCounters, .softReset]

/-- Whether a CONTROL packet's kind names a management command (R169). -/
def isCommandKind (k : BitVec 6) : Bool := Command.all.any (fun c => c.code == k)

/-- The management command that a CONTROL packet's kind names (R169). -/
def commandOf (k : BitVec 6) : Option Command := Command.all.find? (fun c => c.code == k)

/-! The tables' dimensions and power-on rows (section 7.1, 11.5). -/

/-- The number of rows of a table. -/
def tableRows : Table → Nat
  | .posture => 4
  | .zone => 96
  | .cls => 8
  | .gesture => 32
  | .pen => 8

/-- The row size of a table in bytes. -/
def rowSize : Table → Nat
  | .posture => 12
  | .zone => 12
  | .cls => 16
  | .gesture => 16
  | .pen => 12

/-- The row bytes that power-on reset writes, which are also the table's inert row bytes (R132, R178). -/
def defaultRow : Table → Bytes
  | .posture => [0x07#8, 0x00#8, 0x00#8, 0x1E#8, 0x3C#8, 0x3C#8] ++ List.replicate 6 0x00#8
  | .zone => List.replicate 12 0x00#8
  | .cls => [0x58#8, 0x02#8, 0x02#8, 0x02#8, 0x28#8, 0x3C#8, 0x14#8, 0x00#8, 0x84#8, 0x03#8, 0x00#8, 0x01#8]
      ++ List.replicate 4 0x00#8
  | .gesture => List.replicate 16 0x00#8
  | .pen => List.replicate 12 0x00#8

/-- The table code of section 11.3. -/
def tableCode : Table → Nat
  | .posture => 0
  | .zone => 1
  | .cls => 2
  | .gesture => 3
  | .pen => 4

/-- The five tables in the order POSTURE, ZONE, CLASS, GESTURE, PEN. -/
def allTables : List Table := [.posture, .zone, .cls, .gesture, .pen]

/-- The table of a code; a code of 5 or more names none. -/
def tableOfCode (n : Nat) : Option Table := allTables.find? (fun t => tableCode t == n)

end Sys2Proof.Machine
end

