-- ==== Sys2Proof/WellFormed.lean ====
section
/-! DEFINITION. Which terms of `Instr` are steps of the part: a packet's row matches the packet's kind, a payload
fits its length byte, and a faulty transfer is faulty. -/

namespace Sys2Proof

open Machine

/-- A packet run stands on the row of kind `k`: whatever fails framing, or carries that kind (R2). -/
def packetRow (k : BitVec 6) (bytes : Bytes) : Bool := !wellFramed bytes || kindOf bytes == k

/-- A payload fits the header's length byte (11.2). -/
def payloadFits (payload : Bytes) : Bool := decide (payload.length ≤ 255)

/-- The check of a term of `Instr`. A row whose step takes no operand is well formed as it stands. -/
def Instr.wf : Instr → Bool
  | .senseFrame _ bytes => packetRow kindSenseFrame bytes
  | .penFrame _ bytes => packetRow kindPenFrame bytes
  | .scanAck _ bytes => packetRow kindScanAck bytes
  | .wake _ bytes => packetRow kindWake bytes
  | .idReply _ bytes => packetRow kindIdReply bytes
  | .passUp _ bytes => !wellFramed bytes || !consumedKind (kindOf bytes)
  | .stallWatchExpiry _ => true
  | .identityReplyTimeout _ => true
  | .scanSettleTimeout _ => true
  | .transmissionComplete _ => true
  | .senseFrameTake _ => true
  | .slotRequest _ => true
  | .senseFrameCompletion _ => true
  | .forcedEnd _ => true
  | .penFrameTake => true
  | .penFrameCompletion => true
  | .penDrop => true
  | .lingerExpiry => true
  | .keyact => true
  | .typingGuardExpiry => true
  | .btnPress => true
  | .btnRelease => true
  | .autoIdleExpiry => true
  | .wakeDwellExpiry => true
  | .wakePhaseEnd => true
  | .transitionComplete => true
  | .setModeStart => true
  | .swap => true
  | .copyEnd _ => true
  | .verifyPassEnd => true
  | .loadStepTimeout => true
  | .queuedResponseEntry => true
  | .readTransferTaken => true
  | .readTransferEnd _ => true
  | .ignoredTransfer first => first != writeCode && first != readCode
  | .passDown _ _ payload => payloadFits payload
  | .unknown kind payload => payloadFits payload && !isCommandKind kind
  | .identify payload => payloadFits payload
  | .getStatus payload => payloadFits payload
  | .setMode payload => payloadFits payload
  | .setPosture payload => payloadFits payload
  | .setNotices payload => payloadFits payload
  | .loadBegin payload => payloadFits payload
  | .loadRows payload => payloadFits payload
  | .loadEnd payload => payloadFits payload
  | .loadAbort payload => payloadFits payload
  | .commit payload => payloadFits payload
  | .revert payload => payloadFits payload
  | .readRows payload => payloadFits payload
  | .verify payload => payloadFits payload
  | .lockZones payload => payloadFits payload
  | .clearCounters payload => payloadFits payload
  | .softReset payload => payloadFits payload
  | .softResetEffect => true
  | .resetNAssert => true
  | .resetNRelease => true
  | .powerOnReset => true
  | .discardedWriteTransfer bytes =>
    match judgeWrite bytes with
    | .short => true
    | .crc => true
    | .taken channel _ _ => channel == 3#2

end Sys2Proof
end

