-- ==== Sys2Proof/Decode.lean ====
section
/-! DEFINITION. spec/opcode_table.json gives none of its rows bits (its steps are events, not words), so no word
spells a command. -/

namespace Sys2Proof

/-- The command that a word spells by the table's bits: the table gives no row bits (log entry 29). -/
def decodeTableWord (_nbits _w : Nat) : Option Instr := none

end Sys2Proof
end

