-- ==== Sys2Proof/Machine/State.lean ====
section
/-! DEFINITION. The part's whole state as plain data, block by block, and its value after power-on reset. -/

namespace Sys2Proof.Machine

/-! ## Shared pieces -/

/-- A timer: stopped, or running with the time in ms it was last started with (log entry 4). -/
abbrev Timer := Option Nat

/-- A set of tables, as a command's table-set byte names it (11.4). -/
abbrev TableSet := List Table

/-- The kinds of a zone (R49). -/
inductive ZoneKind where
  | none
  | block
  | pass
  | rclick
  | guard
  | edge
deriving DecidableEq, Repr

/-- One contact of a sense frame (11.2). -/
structure Candidate where
  x : Nat
  y : Nat
  area : Nat
  peak : Nat
  major : Nat
  minor : Nat
deriving DecidableEq, Repr

/-- A sense frame: its frame time and 0..16 candidates. -/
structure SenseFrame where
  time : Half
  candidates : List Candidate
deriving DecidableEq, Repr

/-- The values of a pen sample that a PEN record carries (R70, section 4.1). -/
structure PenSample where
  time : Half
  x : Nat
  y : Nat
  pressure : Nat
  tiltX : Byte
  tiltY : Byte
  barrel : Bool
  eraser : Bool
  hover : Nat
deriving DecidableEq, Repr

/-- A pen frame (11.2). -/
structure PenFrame where
  serial : Word
  inRange : Bool
  tip : Bool
  sample : PenSample
deriving DecidableEq, Repr

/-- A waiting slot: empty or one frame, with its replaced tally 0..255 (section 1.2). -/
structure Slot (F : Type) where
  frame : Option F
  tally : Nat
deriving DecidableEq, Repr

/-! ## Records of the Report Queue (chapters 9 and 11) -/

/-- The data streams (R151). -/
inductive DataStream where
  | pad
  | panel
  | pen
deriving DecidableEq, Repr

/-- The frame streams (section 1.2). -/
inductive FrameStream where
  | padSense
  | panelSense
  | pen
deriving DecidableEq, Repr

/-- Phases of a contact entry (R32). -/
inductive Phase where
  | down
  | move
  | up
  | cancel
deriving DecidableEq, Repr

/-- A contact entry of a CONTACT_FRAME record (R32). -/
structure Entry where
  id : Nat
  phase : Phase
  x : Nat
  y : Nat
  area : Nat
deriving DecidableEq, Repr

/-- A contact of a PANEL RESYNC record (R158). -/
structure Contact where
  id : Nat
  x : Nat
  y : Nat
  area : Nat
deriving DecidableEq, Repr

/-- The buttons a POINTER record carries (11.3). -/
structure Buttons where
  left : Bool
  right : Bool
  middle : Bool
deriving DecidableEq, Repr

/-- Phases of a GESTURE record (11.3). -/
inductive GesturePhase where
  | instant
  | begin
  | update
  | finish
  | cancel
deriving DecidableEq, Repr

/-- The pen states (section 4.1). -/
inductive PenState where
  | absent
  | hover
  | ink
  | linger
deriving DecidableEq, Repr

/-- Causes of PEN_LEAVE (R70). -/
inductive LeaveCause where
  | range
  | disabled
  | dropped
deriving DecidableEq, Repr

/-- The operating modes (R137). -/
inductive Mode where
  | sleep
  | waking
  | active
  | idle
  | doze
deriving DecidableEq, Repr

/-- Causes of a transition (R137). -/
inductive Cause where
  | command
  | auto
  | wake
deriving DecidableEq, Repr

/-- Causes of LINK_STALL (R10). -/
inductive StallCause where
  | silence
  | noAck
  | noReply
deriving DecidableEq, Repr

/-- Reasons of PASS_DROP (R13, R155, R177). -/
inductive DropReason where
  | reserved
  | linkOff
  | full
  | queue
  | length
deriving DecidableEq, Repr

/-- Reasons of LINK_ERROR (R164 to R166); `collected` is the byte count that SHORT carries. -/
inductive LinkErrorReason where
  | short (collected : Nat)
  | crc
  | badFirst
  | channel
deriving DecidableEq, Repr

/-- A link's wake outcome (R137). -/
inductive WakeOutcome where
  | none
  | awaiting
  | replied
  | noReply
  | notQueried
deriving DecidableEq, Repr

/-- The banks of a table (R116). -/
inductive Bank where
  | a
  | b
deriving DecidableEq, Repr

/-- Events with their details (section 11.3). -/
inductive Event where
  | penEnter (serial : Word)
  | penLeave (serial : Word) (cause : LeaveCause)
  | penConflict (serial : Word)
  | modeChanged (mode : Mode) (cause : Cause)
  | wake (link : Surface)
  | diag (pad panel : WakeOutcome) (count : Nat) (toggle : Bool)
  | linkStall (link : Surface) (cause : StallCause)
  | linkBack (link : Surface)
  | trackExhaust (surface : Surface) (discards : Nat)
  | frameOverrun (stream : FrameStream) (tally : Nat)
  | tableFault (table : Table) (bank : Bank) (row : Nat)
  | loadTimeout (table : Table) (cursor written : Nat)
  | passDrop (link : Surface) (reason : DropReason)
  | linkError (reason : LinkErrorReason)
deriving DecidableEq, Repr

/-- Statuses of a RESPONSE (11.4). -/
inductive Status where
  | done
  | busy
  | badArg
  | badState
  | protectedZone
  | tableBusy
  | crcFail
  | short
  | aborted
  | unknown
deriving DecidableEq, Repr

/-- A RESPONSE: command kind, status, result bytes (R170). -/
structure Response where
  kind : BitVec 6
  status : Status
  result : Bytes
deriving DecidableEq, Repr

/-- The state a RESYNC record restates, by stream (R158). -/
inductive Restated where
  | pad (buttons : Buttons) (code : Nat)
  | panel (time : Half) (code : Nat) (contacts : List Contact)
  | pen (state : PenState) (sample : Option PenSample)
deriving DecidableEq, Repr

/-- The records the host reads (R151, 11.3). -/
inductive Record where
  | contactFrame (time : Half) (entries : List Entry)
  | pointer (dx dy : Int) (buttons : Buttons)
  | pen (state : PenState) (sample : PenSample)
  | gesture (surface : Surface) (code : Nat) (phase : GesturePhase) (fingers : Nat) (x y : Nat) (progress : Int)
  | event (e : Event)
  | response (r : Response)
  | passUp (link : Surface) (kind : BitVec 6) (payload : Bytes)
  | resync (dropped : Nat) (state : Restated)
deriving DecidableEq, Repr

/-! ## Sensor links (chapters 1 and 8) -/

/-- Link states (R8). -/
inductive LinkState where
  | off
  | up
  | stalled
deriving DecidableEq, Repr

/-- Scan settings, UNKNOWN being a commanded setting after reset (R137). -/
inductive Setting where
  | off
  | full
  | reduced
  | wakeOnTouch
  | unknown
deriving DecidableEq, Repr

/-- A packet the part originates (R15). -/
inductive PartPacket where
  | scanControl (setting : Setting)
  | idQuery
deriving DecidableEq, Repr

/-- A host packet in a pass-down buffer; its channel is its link's, its CRC-8 the one R165 checked (R13). -/
structure HostPacket where
  kind : BitVec 6
  payload : Bytes
deriving DecidableEq, Repr

/-- What a transmitter is sending (section 1.5). -/
inductive Sending where
  | part (p : PartPacket)
  | host (p : HostPacket)
deriving DecidableEq, Repr

/-- One sensor link: its intake's link state and stall watch, its Downlink Arbiter, and the Mode
Engine's per-link items. -/
structure Link where
  state : LinkState
  watch : Timer
  errors : Nat
  query : Timer
  passDown : List HostPacket
  partQueue : List PartPacket
  sending : Option Sending
  commanded : Setting
  scanChange : Bool
  settle : Timer
  outcome : WakeOutcome
deriving DecidableEq, Repr

/-! ## The Track Table (chapter 2) -/

/-- Why a track is held (R74). -/
inductive HeldReason where
  | palm
  | nearPalm
  | zone
  | typing
  | penGuard
  | gesture
deriving DecidableEq, Repr

/-- The state of an occupied slot; the held reason is present in HELD alone (R19). -/
inductive TrackState where
  | tentative
  | live
  | held (reason : HeldReason)
deriving DecidableEq, Repr

/-- A track record with its four frame marks (section 2.1). -/
structure Track where
  surface : Surface
  id : Nat
  state : TrackState
  x : Nat
  y : Nat
  area : Nat
  major : Nat
  age : Nat
  matched : Nat
  missed : Nat
  birthZone : ZoneKind
  lastX : Nat
  lastY : Nat
  member : Bool
  matchedNow : Bool
  bornNow : Bool
  due : List Phase
  endMark : Bool
deriving DecidableEq, Repr

/-- The Track Table, the next-id pointer and the allocator (R24, R25). A FREE slot is `none`. -/
structure TrackTable where
  slots : List (Option Track)
  nextId : Nat
  lastServed : Surface
deriving DecidableEq, Repr

/-! ## Gestures (chapter 6) -/

/-- Kinds of movement (R96). -/
inductive GestureKind where
  | tap
  | hold
  | swipeLeft
  | swipeRight
  | swipeUp
  | swipeDown
  | pinchIn
  | pinchOut
deriving DecidableEq, Repr

/-- Actions of a GESTURE row (R96). -/
inductive GestureAction where
  | report
  | left
  | right
  | middle
deriving DecidableEq, Repr

/-- A GESTURE row as read (R96, R178); a surface or kind code not listed is `none`. -/
structure GestureRule where
  enabled : Bool
  surface : Option Surface
  fingers : Nat
  kind : Option GestureKind
  action : GestureAction
  edge : Bool
  consume : Bool
  distance : Nat
  timeMin : Nat
  timeMax : Nat
  code : Nat
deriving DecidableEq, Repr

/-- The states of a gesture context (section 6.2). -/
inductive ContextState where
  | closed
  | gathering
  | candidate
  | active
  | passive
  | finishing
deriving DecidableEq, Repr

/-- A member entry (R97). `endedNow` marks an end in the frame being processed: R105 asks for the
members that did not end in an earlier frame (log entry 24). -/
structure Member where
  slot : Nat
  startX : Nat
  startY : Nat
  lastX : Nat
  lastY : Nat
  excursion : Nat
  birthZone : ZoneKind
  ended : Bool
  endedNow : Bool
deriving DecidableEq, Repr

/-- The anchor of a context (R101). -/
structure Anchor where
  x : Nat
  y : Nat
  spread : Nat
deriving DecidableEq, Repr

/-- A winning rule: row number and a copy of its content (R97). -/
structure Winner where
  row : Nat
  rule : GestureRule
deriving DecidableEq, Repr

/-- A gesture context (R97). -/
structure Context where
  state : ContextState
  members : List Member
  lastSeen : Half
  elapsed : Nat
  anchor : Option Anchor
  candidates : List Nat
  recompute : Bool
  winner : Option Winner
  progress : Int
deriving DecidableEq, Repr

/-! ## Frame operations (R21, R60) -/

/-- A CLASS row as read (R77, R178). -/
structure Profile where
  matchRadius : Nat
  confirm : Nat
  missLimit : Nat
  palmArea : Nat
  palmLength : Nat
  guardArea : Nat
  neighbour : Nat
  gain : Nat
deriving DecidableEq, Repr

/-- The Pen Guard record (R69). -/
structure PenGuard where
  active : Bool
  xMin : Nat
  xMax : Nat
  yMin : Nat
  yMax : Nat
  activation : Nat
  ink : Nat
  retroWindow : Nat
deriving DecidableEq, Repr

/-- A sense frame in progress with its snapshot (R21). `waiting` holds the unmatched candidates not yet
answered by the allocator, the first of them placing the operation's request (R25). -/
structure SenseOp where
  frame : SenseFrame
  tally : Nat
  posture : Nat
  gather : Nat
  profile : Profile
  guard : PenGuard
  typing : Bool
  retroDue : Bool
  inkDue : Bool
  waiting : List Candidate
  discards : Nat
deriving DecidableEq, Repr

/-- What each surface has of its own: the sense stream, the operation, the Track Unit's per-surface
items and the gesture context. -/
structure SurfaceUnit where
  slot : Slot SenseFrame
  overruns : Nat
  op : Option SenseOp
  discards : Nat
  exhausted : Bool
  forcedPending : Bool
  lastTime : Half
  context : Context
deriving DecidableEq, Repr

/-! ## The Pen Unit (chapter 4) -/

/-- Handedness of a pen profile (R57). -/
inductive Hand where
  | none
  | left
  | right
deriving DecidableEq, Repr

/-- A pen profile: the ten fields of R57 but the serial, distances and threshold in panel and pressure
units. -/
structure PenProfile where
  hand : Hand
  ahead : Nat
  behind : Nat
  above : Nat
  below : Nat
  hoverLimit : Nat
  inkThreshold : Nat
  linger : Nat
  retroWindow : Nat
deriving DecidableEq, Repr

/-- Where a profile was copied from (section 4.1). -/
inductive ProfileSource where
  | row (n : Nat)
  | fallback
deriving DecidableEq, Repr

/-- The followed pen: serial, profile and profile source, present or absent together (R56). -/
structure Followed where
  serial : Word
  profile : PenProfile
  source : ProfileSource
deriving DecidableEq, Repr

/-- A pen frame in progress: the frame, its tally, and the pen enable read at its take (R60). -/
structure PenOp where
  frame : PenFrame
  tally : Nat
  enabled : Bool
deriving DecidableEq, Repr

/-- The pen stream and the Pen Unit (sections 1.2 and 4.1, R69). -/
structure PenUnit where
  slot : Slot PenFrame
  overruns : Nat
  op : Option PenOp
  state : PenState
  followed : Option Followed
  refreshDue : Bool
  lastSample : Option PenSample
  conflict : Bool
  linger : Timer
  dropPending : Bool
  guard : PenGuard
deriving DecidableEq, Repr

/-! ## Palm Filter, pointer and buttons (chapters 3, 5, 6) -/

/-- The Palm Filter's own state (R94). -/
structure PalmFilter where
  typing : Timer
  activation : Nat
deriving DecidableEq, Repr

/-- The pointer record (R110). -/
structure PointerRecord where
  followed : Option Nat
  refX : Nat
  refY : Nat
  remX : Int
  remY : Int
deriving DecidableEq, Repr

/-- The button state (R112). -/
inductive Button where
  | none
  | left
  | right
deriving DecidableEq, Repr

/-- The Gesture Unit's state beside the contexts (R115). `releaseOwed`: R47's release waits for the pad's
forced end (log entry 23). -/
structure GestureUnit where
  pointer : PointerRecord
  button : Button
  releaseOwed : Bool
  clickView : List (Nat × Nat)
  ink : Nat
deriving DecidableEq, Repr

/-! ## The Table Store (chapter 7) -/

/-- What the check of a stored row's check code finds (R131, log entry 5). -/
inductive Integrity where
  | intact
  | singleBit
  | uncorrectable
deriving DecidableEq, Repr

/-- A stored row (R116); the check code is held as the verdict of its check. -/
structure StoredRow where
  bytes : Bytes
  inert : Bool
  integrity : Integrity
deriving DecidableEq, Repr

/-- Staging statuses (R117). -/
inductive Staging where
  | clean
  | loading
  | edited
  | broken
  | copying
deriving DecidableEq, Repr

/-- A table: two banks, the bank select and the staging status (R116, R117). -/
structure TableState where
  bankA : List StoredRow
  bankB : List StoredRow
  select : Bank
  status : Staging
deriving DecidableEq, Repr

/-- An entry of the Row Fault List (R133). -/
structure FaultEntry where
  table : Table
  bank : Bank
  row : Nat
deriving DecidableEq, Repr

/-- The open-load record (section 7.3). -/
structure OpenLoad where
  table : Table
  first : Nat
  count : Option Nat
  cursor : Nat
  written : Nat
  crc : Word
  timer : Timer
deriving DecidableEq, Repr

/-- A verify pass in flight (R130). -/
inductive VerifyPass where
  | command (tables : TableSet)
  | wake
deriving DecidableEq, Repr

/-- The Table Store (R136). -/
structure TableStore where
  posture : TableState
  zone : TableState
  cls : TableState
  gesture : TableState
  pen : TableState
  holds : Nat
  load : Option OpenLoad
  commit : Option TableSet
  faults : List FaultEntry
  overflow : Bool
  lock : Nat
  corrected : Nat
  verify : Option VerifyPass
deriving DecidableEq, Repr

/-! ## Mode Engine, Command Unit, Report Queue, Host Link Port (chapters 8 to 10) -/

/-- The phase of a transition (R137). -/
inductive TransitionPhase where
  | wake
  | scan
deriving DecidableEq, Repr

/-- A transition in flight (R137). -/
structure Transition where
  target : Mode
  phase : TransitionPhase
  cause : Cause
deriving DecidableEq, Repr

/-- A SET_MODE in progress: its target, the delay it carries, and whether it drives its transition (R137). -/
structure SetMode where
  target : Mode
  delay : Option Nat
  driving : Bool
deriving DecidableEq, Repr

/-- The Mode Engine (R137). `wakeCount` is the wake pass's count once the pass has ended (R130). -/
structure ModeEngine where
  mode : Mode
  transition : Option Transition
  setMode : Option SetMode
  delay : Nat
  autoIdle : Timer
  returnDue : Bool
  dwell : Timer
  toggle : Bool
  wakeCount : Option Nat
deriving DecidableEq, Repr

/-- The enables in force (R43). -/
structure Enables where
  pad : Bool
  panel : Bool
  pen : Bool
deriving DecidableEq, Repr

/-- The Command Unit: posture select, enables in force, command slot (the kind in progress), the
tables of a REVERT in progress, and a SOFT_RESET taken but not yet in effect (R42, R43, R169, R172). -/
structure CommandUnit where
  select : Nat
  enables : Enables
  slot : Option (BitVec 6)
  revert : Option TableSet
  softReset : Bool
deriving DecidableEq, Repr

/-- The Report Queue (R151 to R163); a stream's resync state is `none` or its dropped count. -/
structure ReportQueue where
  records : List Record
  resyncPad : Option Nat
  resyncPanel : Option Nat
  resyncPen : Option Nat
  reportMask : BitVec 14
  attentionMask : BitVec 18
  lost : Nat
  waiting : Option Response
  attn : Bool
deriving DecidableEq, Repr

/-- The transfer state of the port (section 10.1). `write` holds the bytes collected after the transfer byte; `read`
the fixed record, `none` for EMPTY, whether the queue it came from still stands (R168), and the number of packet
bytes clocked out. -/
inductive Transfer where
  | none
  | write (collected : Bytes)
  | read (record : Option Record) (standing : Bool) (out : Nat)
  | ignoring
deriving DecidableEq, Repr

/-- The Host Link Port (R168). -/
structure HostPort where
  transfer : Transfer
  errors : Nat
deriving DecidableEq, Repr

/-- The state of the part, and the queue of the steps to come. -/
structure State where
  padLink : Link
  panelLink : Link
  pad : SurfaceUnit
  panel : SurfaceUnit
  tracks : TrackTable
  pen : PenUnit
  palm : PalmFilter
  gesture : GestureUnit
  store : TableStore
  mode : ModeEngine
  command : CommandUnit
  queue : ReportQueue
  port : HostPort
  inReset : Bool
  freeCount : Nat
  pending : List Instr
deriving DecidableEq, Repr

/-- The reasons for which the part stops: none. The spec gives every step an effect in every state, so no
meaning raises a fault. -/
inductive Fault where
deriving DecidableEq, Repr

/-- The reasons for which the model gives a command no meaning. -/
inductive Refusal where
  /-- Raised by `exec` for a row without a meaning yet; safe, since nothing is claimed of it. No row is left so. -/
  | notModelled (mnemonic : String)
deriving DecidableEq, Repr

/-! ## Reset values -/

/-- A waiting slot after reset: empty, tally 0 (R18). -/
def Slot.empty (F : Type) : Slot F := { frame := none, tally := 0 }

/-- A sensor link after reset (R18, R150). -/
def Link.reset : Link :=
  { state := .off, watch := none, errors := 0, query := none, passDown := [], partQueue := [],
    sending := none, commanded := .unknown, scanChange := false, settle := none, outcome := .none }

/-- A gesture context after reset, and after it closes: CLOSED, empty, every other field absent or 0 (R97, R109). -/
def Context.closed : Context :=
  { state := .closed, members := [], lastSeen := 0#16, elapsed := 0, anchor := none,
    candidates := [], recompute := false, winner := none, progress := 0 }

/-- A surface's units after reset (R18, R39, R115). -/
def SurfaceUnit.reset : SurfaceUnit :=
  { slot := Slot.empty SenseFrame, overruns := 0, op := none, discards := 0, exhausted := false,
    forcedPending := false, lastTime := 0#16, context := Context.closed }

/-- The Track Table after reset (R39). -/
def TrackTable.reset : TrackTable :=
  { slots := List.replicate 20 none, nextId := 1, lastServed := .panel }

/-- The Pen Guard record after reset (R73). -/
def PenGuard.reset : PenGuard :=
  { active := false, xMin := 0, xMax := 0, yMin := 0, yMax := 0, activation := 0, ink := 0, retroWindow := 0 }

/-- The Pen Unit after reset (R18, R73). -/
def PenUnit.reset : PenUnit :=
  { slot := Slot.empty PenFrame, overruns := 0, op := none, state := .absent, followed := none,
    refreshDue := false, lastSample := none, conflict := false, linger := none, dropPending := false,
    guard := PenGuard.reset }

/-- The Palm Filter after reset (R94). -/
def PalmFilter.reset : PalmFilter := { typing := none, activation := 0 }

/-- The Gesture Unit after reset (R115); the reference position is a DESIGN CHOICE (log entry 25). -/
def GestureUnit.reset : GestureUnit :=
  { pointer := { followed := none, refX := 0, refY := 0, remX := 0, remY := 0 },
    button := .none, releaseOwed := false, clickView := [], ink := 0 }

/-- A freshly written row with a clear mark (R116). -/
def StoredRow.fresh (bytes : Bytes) : StoredRow := { bytes := bytes, inert := false, integrity := .intact }

/-- A table after power-on reset (R136). -/
def TableState.reset (t : Table) : TableState :=
  { bankA := List.replicate (tableRows t) (StoredRow.fresh (defaultRow t)),
    bankB := List.replicate (tableRows t) (StoredRow.fresh (defaultRow t)),
    select := .a, status := .clean }

/-- The Table Store after power-on reset (R136). -/
def TableStore.reset : TableStore :=
  { posture := TableState.reset .posture, zone := TableState.reset .zone, cls := TableState.reset .cls,
    gesture := TableState.reset .gesture, pen := TableState.reset .pen,
    holds := 0, load := none, commit := none, faults := [], overflow := false, lock := 0,
    corrected := 0, verify := none }

/-- The Mode Engine after power-on reset (R150). -/
def ModeEngine.reset : ModeEngine :=
  { mode := .sleep, transition := none, setMode := none, delay := 30, autoIdle := none,
    returnDue := false, dwell := none, toggle := false, wakeCount := none }

/-- The Command Unit after power-on reset: row 0 of every bank is the default row, so all enables are
yes (R42, R43, R170). -/
def CommandUnit.reset : CommandUnit :=
  { select := 0, enables := { pad := true, panel := true, pen := true }, slot := none, revert := none,
    softReset := false }

/-- The Report Queue after reset (R163). -/
def ReportQueue.reset : ReportQueue :=
  { records := [], resyncPad := none, resyncPanel := none, resyncPen := none,
    reportMask := 0x3FFF#14, attentionMask := 0x3FFFF#18, lost := 0, waiting := none, attn := false }

/-- The Host Link Port after reset (R168). -/
def HostPort.reset : HostPort := { transfer := .none, errors := 0 }

/-- The part right after power-on reset, out of reset, with no command waiting (R148, R150). -/
def State.reset : State :=
  { padLink := Link.reset, panelLink := Link.reset, pad := SurfaceUnit.reset, panel := SurfaceUnit.reset,
    tracks := TrackTable.reset, pen := PenUnit.reset, palm := PalmFilter.reset,
    gesture := GestureUnit.reset, store := TableStore.reset, mode := ModeEngine.reset,
    command := CommandUnit.reset, queue := ReportQueue.reset, port := HostPort.reset,
    inReset := false, freeCount := 0, pending := [] }

end Sys2Proof.Machine
end

