-- ==== Sys2Proof/Machine/Operands.lean ====
section
/-! DEFINITION. The byte layouts of chapter 11: what a frame's payload, a table row and a command's parameters
say, and the bytes of the records. -/

namespace Sys2Proof.Machine

/-! ## Frames (11.2, R3) -/

/-- The largest x of a surface (00, Conventions). -/
def maxX : Surface → Nat
  | .pad => 4095
  | .panel => 16383

/-- The largest y of a surface (00, Conventions). -/
def maxY : Surface → Nat
  | .pad => 2559
  | .panel => 10239

/-- Candidate `i` of a SENSE_FRAME payload (11.2). -/
def candidateAt (p : Bytes) (i : Nat) : Candidate :=
  { x := u16At p (3 + 9 * i), y := u16At p (5 + 9 * i), area := u8At p (7 + 9 * i),
    peak := u16At p (8 + 9 * i), major := u8At p (10 + 9 * i), minor := u8At p (11 + 9 * i) }

/-- R3's test of one candidate: position within its surface and peak at most 4095. -/
def candidateOk (f : Surface) (c : Candidate) : Bool :=
  decide (c.x ≤ maxX f) && decide (c.y ≤ maxY f) && decide (c.peak ≤ 4095)

/-- The sense frame a payload carries, none when R3 calls it malformed. -/
def parseSense (f : Surface) (p : Bytes) : Option SenseFrame :=
  let n := u8At p 2
  let cs := (List.range n).map (candidateAt p)
  if n ≤ 16 ∧ p.length = 3 + 9 * n ∧ cs.all (candidateOk f) = true then
    some { time := BitVec.ofNat 16 (u16At p 0), candidates := cs }
  else none

/-- R3's range of a tilt, -60..+60. -/
def tiltOk (b : Byte) : Bool := decide (-60 ≤ b.toInt) && decide (b.toInt ≤ 60)

/-- The pen frame a payload of 16 bytes carries (11.2). -/
def penFrameOf (p : Bytes) : PenFrame :=
  { serial := BitVec.ofNat 32 (u32At p 2), inRange := flagAt p 6 0, tip := flagAt p 6 1,
    sample :=
      { time := BitVec.ofNat 16 (u16At p 0), x := u16At p 7, y := u16At p 9, pressure := u16At p 11,
        tiltX := byteAt p 13, tiltY := byteAt p 14, barrel := flagAt p 6 2, eraser := flagAt p 6 3,
        hover := u8At p 15 } }

/-- The pen frame a payload carries, none when R3 calls it malformed. -/
def parsePen (p : Bytes) : Option PenFrame :=
  let f := penFrameOf p
  if p.length = 16 ∧ f.serial ≠ 0#32 ∧ f.sample.x ≤ 16383 ∧ f.sample.y ≤ 10239 ∧ f.sample.pressure ≤ 4095
      ∧ tiltOk f.sample.tiltX = true ∧ tiltOk f.sample.tiltY = true then some f
  else none

/-- The setting a SCAN_ACK names; a payload length other than 1 or a code of 4 or more names none (R138). -/
def ackSetting (p : Bytes) : Option Setting :=
  if p.length = 1 then
    match u8At p 0 with
    | 0 => some .off
    | 1 => some .full
    | 2 => some .reduced
    | 3 => some .wakeOnTouch
    | _ => none
  else none

/-! ## Table rows (11.5, R178) -/

/-- A POSTURE row as read (R40). -/
structure PostureRow where
  enables : Enables
  padProfile : Nat
  panelProfile : Nat
  typingHold : Nat
  padGather : Nat
  panelGather : Nat
deriving DecidableEq, Repr

/-- A POSTURE row's fields; the profile bytes use their low three bits (R178). -/
def postureOf (b : Bytes) : PostureRow :=
  { enables := { pad := flagAt b 0 0, panel := flagAt b 0 1, pen := flagAt b 0 2 },
    padProfile := u8At b 1 % 8, panelProfile := u8At b 2 % 8, typingHold := u8At b 3,
    padGather := u8At b 4, panelGather := u8At b 5 }

/-- A ZONE row as read (R49); an unassigned surface code is `none`. -/
structure ZoneRow where
  kind : ZoneKind
  surface : Option Surface
  xLo : Nat
  xHi : Nat
  yLo : Nat
  yHi : Nat
deriving DecidableEq, Repr

/-- The kind a code reads as (R49). -/
def zoneKindOf : Nat → ZoneKind
  | 1 => .block
  | 2 => .pass
  | 3 => .rclick
  | 4 => .guard
  | 5 => .edge
  | _ => .none

/-- The surface a code names (11.3). -/
def surfaceOf : Nat → Option Surface
  | 0 => some .pad
  | 1 => some .panel
  | _ => none

/-- A ZONE row's fields (11.5). -/
def zoneOf (b : Bytes) : ZoneRow :=
  { kind := zoneKindOf (u8At b 0), surface := surfaceOf (u8At b 1), xLo := u16At b 2, xHi := u16At b 4,
    yLo := u16At b 6, yHi := u16At b 8 }

/-- A CLASS row's fields; a miss limit of 0 reads as 1 and one above 4 as 4, the confirm count uses its
low three bits (R178). -/
def profileOf (b : Bytes) : Profile :=
  { matchRadius := u16At b 0, confirm := u8At b 2 % 8, missLimit := min 4 (max 1 (u8At b 3)),
    palmArea := u8At b 4, palmLength := u8At b 5, guardArea := u8At b 6, neighbour := u16At b 8,
    gain := u16At b 10 }

/-- The gesture kind a code names (11.5). -/
def gestureKindOf : Nat → Option GestureKind
  | 0 => some .tap
  | 1 => some .hold
  | 2 => some .swipeLeft
  | 3 => some .swipeRight
  | 4 => some .swipeUp
  | 5 => some .swipeDown
  | 6 => some .pinchIn
  | 7 => some .pinchOut
  | _ => none

/-- The action a code reads as; one not listed reads as REPORT (R96). -/
def gestureActionOf : Nat → GestureAction
  | 1 => .left
  | 2 => .right
  | 3 => .middle
  | _ => .report

/-- A GESTURE row's fields; the distance uses its low twelve bits (R178). -/
def ruleOf (b : Bytes) : GestureRule :=
  { enabled := flagAt b 0 0, surface := surfaceOf (u8At b 1), fingers := u8At b 2,
    kind := gestureKindOf (u8At b 3), action := gestureActionOf (u8At b 4), edge := flagAt b 0 1,
    consume := flagAt b 0 2, distance := u16At b 5 % 4096, timeMin := u8At b 7, timeMax := u8At b 8,
    code := u8At b 9 }

/-- Whether a GESTURE row is inert by its content (R96). -/
def GestureRule.inert (r : GestureRule) : Bool :=
  !r.enabled || r.surface == none || r.kind == none || decide (r.fingers < 1) || decide (5 < r.fingers)
    || r.code == 0

/-- The handedness a code reads as; 3 reads as NONE (11.5). -/
def handOf : Nat → Hand
  | 1 => .left
  | 2 => .right
  | _ => .none

/-- A PEN row's serial (11.5). -/
def penSerialOf (b : Bytes) : Word := BitVec.ofNat 32 (u32At b 0)

/-- A PEN row's profile; distances in steps of 64, threshold in steps of 16 (11.5, R57). -/
def penProfileOf (b : Bytes) : PenProfile :=
  { hand := handOf (u8At b 4 % 4), ahead := 64 * u8At b 5, behind := 64 * u8At b 6,
    above := 64 * u8At b 7, below := 64 * u8At b 8, hoverLimit := u8At b 9, inkThreshold := 16 * u8At b 10,
    linger := u8At b 11, retroWindow := u8At b 4 / 16 }

/-- The fallback profile (R58). -/
def fallbackProfile : PenProfile :=
  { hand := .none, ahead := 0, behind := 0, above := 0, below := 0, hoverLimit := 0, inkThreshold := 0,
    linger := 0, retroWindow := 0 }

/-! ## Table sets (11.4) -/

/-- The tables a set byte names, in the order POSTURE, ZONE, CLASS, GESTURE, PEN. -/
def tableSetOf (b : Nat) : TableSet := allTables.filter (fun t => b.testBit (tableCode t))

/-- Whether a set byte is empty or names a table that does not exist (11.4). -/
def badSet (b : Nat) : Bool := b == 0 || decide (32 ≤ b)

/-- The byte of a table set. -/
def tableSetByte (ts : TableSet) : Bytes :=
  putU8 ((ts.map (fun t => 2 ^ tableCode t)).foldl (· + ·) 0)

/-! ## Records (11.3) -/

/-- Surface code (11.3). -/
def surfaceCode : Surface → Nat
  | .pad => 0
  | .panel => 1

/-- Link code (11.3). -/
def linkCode : Surface → Nat
  | .pad => 1
  | .panel => 2

/-- Contact phase code (11.3). -/
def Phase.code : Phase → Nat
  | .down => 0
  | .move => 1
  | .up => 2
  | .cancel => 3

/-- Gesture phase code (11.3). -/
def GesturePhase.code : GesturePhase → Nat
  | .instant => 0
  | .begin => 1
  | .update => 2
  | .finish => 3
  | .cancel => 4

/-- Pen state code (11.3). -/
def PenState.code : PenState → Nat
  | .absent => 0
  | .hover => 1
  | .ink => 2
  | .linger => 3

/-- Leave cause code (11.3). -/
def LeaveCause.code : LeaveCause → Nat
  | .range => 0
  | .disabled => 1
  | .dropped => 2

/-- Mode code (11.3). -/
def Mode.code : Mode → Nat
  | .sleep => 0
  | .waking => 1
  | .active => 2
  | .idle => 3
  | .doze => 4

/-- Transition cause code (11.3). -/
def Cause.code : Cause → Nat
  | .command => 0
  | .auto => 1
  | .wake => 2

/-- Stall cause code (11.3). -/
def StallCause.code : StallCause → Nat
  | .silence => 0
  | .noAck => 1
  | .noReply => 2

/-- PASS_DROP reason code (11.3). -/
def DropReason.code : DropReason → Nat
  | .reserved => 0
  | .linkOff => 1
  | .full => 2
  | .queue => 3
  | .length => 4

/-- LINK_ERROR reason code (11.3). -/
def LinkErrorReason.code : LinkErrorReason → Nat
  | .short _ => 0
  | .crc => 1
  | .badFirst => 2
  | .channel => 3

/-- The bytes collected that LINK_ERROR carries: those of SHORT, else 0 (11.3). -/
def LinkErrorReason.collected : LinkErrorReason → Nat
  | .short n => n
  | .crc => 0
  | .badFirst => 0
  | .channel => 0

/-- DIAG outcome code (11.3): 0 REPLIED, 1 NO_REPLY, 2 NOT_QUERIED; DIAG is raised when no other outcome stands (R141). -/
def WakeOutcome.code : WakeOutcome → Nat
  | .replied => 0
  | .noReply => 1
  | .notQueried => 2
  | .none => 2
  | .awaiting => 1

/-- Bank code (11.3). -/
def Bank.code : Bank → Nat
  | .a => 0
  | .b => 1

/-- Frame stream code (11.3). -/
def FrameStream.code : FrameStream → Nat
  | .padSense => 0
  | .panelSense => 1
  | .pen => 2

/-- Status code (11.4). -/
def Status.code : Status → Nat
  | .done => 0
  | .busy => 1
  | .badArg => 2
  | .badState => 3
  | .protectedZone => 4
  | .tableBusy => 5
  | .crcFail => 6
  | .short => 7
  | .aborted => 8
  | .unknown => 9

/-- The code of an event's kind, 0..13 (11.3), which is also its bit in the report mask. -/
def Event.kind : Event → Nat
  | .penEnter _ => 0
  | .penLeave _ _ => 1
  | .penConflict _ => 2
  | .modeChanged _ _ => 3
  | .wake _ => 4
  | .diag _ _ _ _ => 5
  | .linkStall _ _ => 6
  | .linkBack _ => 7
  | .trackExhaust _ _ => 8
  | .frameOverrun _ _ => 9
  | .tableFault _ _ _ => 10
  | .loadTimeout _ _ _ => 11
  | .passDrop _ _ => 12
  | .linkError _ => 13

/-- The detail bytes of an event (11.3). -/
def Event.detail : Event → Bytes
  | .penEnter n => putU32 n.toNat
  | .penLeave n c => putU32 n.toNat ++ putU8 c.code
  | .penConflict n => putU32 n.toNat
  | .modeChanged m c => putU8 m.code ++ putU8 c.code
  | .wake l => putU8 (linkCode l)
  | .diag p q n t => putU8 p.code ++ putU8 q.code ++ putU16 n ++ putU8 t.toNat
  | .linkStall l c => putU8 (linkCode l) ++ putU8 c.code
  | .linkBack l => putU8 (linkCode l)
  | .trackExhaust f n => putU8 (surfaceCode f) ++ putU8 n
  | .frameOverrun f n => putU8 f.code ++ putU8 n
  | .tableFault t k r => putU8 (tableCode t) ++ putU8 k.code ++ putU8 r
  | .loadTimeout t c w => putU8 (tableCode t) ++ putU8 c ++ putU8 w
  | .passDrop l r => putU8 (linkCode l) ++ putU8 r.code
  | .linkError r => putU8 r.code ++ putU16 r.collected

/-- The buttons byte (11.3). -/
def Buttons.byte (b : Buttons) : Bytes := putFlags [b.left, b.right, b.middle]

/-- The sample fields of a PEN record after its state (11.3). -/
def PenSample.tail (p : PenSample) : Bytes :=
  putFlags [p.barrel, p.eraser] ++ putU16 p.x ++ putU16 p.y ++ putU16 p.pressure ++ [p.tiltX, p.tiltY] ++ putU8 p.hover

/-- The sample of a PEN RESYNC record marked absent: all values 0 (R158). -/
def PenSample.zero : PenSample :=
  { time := 0#16, x := 0, y := 0, pressure := 0, tiltX := 0#8, tiltY := 0#8, barrel := false, eraser := false, hover := 0 }

/-- A contact entry's bytes (11.3). -/
def Entry.bytes (e : Entry) : Bytes :=
  putU8 e.id ++ putU8 e.phase.code ++ putU16 e.x ++ putU16 e.y ++ putU8 e.area

/-- A RESYNC contact's bytes (11.3). -/
def Contact.bytes (c : Contact) : Bytes := putU8 c.id ++ putU16 c.x ++ putU16 c.y ++ putU8 c.area

/-- The stream of a RESYNC record (11.3). -/
def Restated.stream : Restated → DataStream
  | .pad _ _ => .pad
  | .panel _ _ _ => .panel
  | .pen _ _ => .pen

/-- Data stream code (11.3). -/
def DataStream.code : DataStream → Nat
  | .pad => 0
  | .panel => 1
  | .pen => 2

/-- The restated state's bytes (11.3). -/
def Restated.bytes : Restated → Bytes
  | .pad btn code => btn.byte ++ putU8 code
  | .panel t code cs =>
    putU16 t.toNat ++ putU8 code ++ putU8 cs.length ++ (cs.map Contact.bytes).flatten
  | .pen st none => putU8 st.code ++ putU8 0 ++ putU16 PenSample.zero.time.toNat ++ PenSample.zero.tail
  | .pen st (some p) => putU8 st.code ++ putU8 1 ++ putU16 p.time.toNat ++ p.tail

/-- A record's kind code (11.3). -/
def Record.kind : Record → BitVec 6
  | .contactFrame _ _ => 0x01#6
  | .pointer _ _ _ => 0x02#6
  | .pen _ _ => 0x03#6
  | .gesture _ _ _ _ _ _ _ => 0x04#6
  | .event _ => 0x05#6
  | .response _ => 0x06#6
  | .passUp _ _ _ => 0x07#6
  | .resync _ _ => 0x08#6

/-- A record's payload (11.3). -/
def Record.payload : Record → Bytes
  | .contactFrame t es => putU16 t.toNat ++ putU8 es.length ++ (es.map Entry.bytes).flatten
  | .pointer dx dy btn => putS16 dx ++ putS16 dy ++ btn.byte
  | .pen st p => putU16 p.time.toNat ++ putU8 st.code ++ p.tail
  | .gesture f code ph n x y pr =>
    putU8 (surfaceCode f) ++ putU8 code ++ putU8 ph.code ++ putU8 n ++ putU16 x ++ putU16 y ++ putS16 pr
  | .event e => putU8 e.kind ++ e.detail
  | .response r => putU8 r.kind.toNat ++ putU8 r.status.code ++ r.result
  | .passUp l k p => putU8 (linkCode l) ++ putU8 k.toNat ++ p
  | .resync n st => putU8 st.stream.code ++ putU16 n ++ st.bytes

/-- The packet a read transfer sends for a record, or EMPTY (R161, R167): channel CONTROL. -/
def readPacket : Option Record → Bytes
  | some r => packetBytes 0#2 r.kind r.payload
  | none => packetBytes 0#2 0x00#6 []

/-- The packet the Downlink Arbiter sends for what its transmitter holds (R13, R15). -/
def sentPacket (link : Surface) : Sending → Bytes
  | .host p => packetBytes (linkChannel link) p.kind p.payload
  | .part (.scanControl st) =>
    packetBytes (linkChannel link) kindScanControl
      (putU8 (match st with | .off => 0 | .full => 1 | .reduced => 2 | .wakeOnTouch => 3 | .unknown => 7))
  | .part .idQuery => packetBytes (linkChannel link) kindIdQuery []

end Sys2Proof.Machine
end

