-- ==== Sys2Proof/Machine/Ops.lean ====
section
/-! DEFINITION. The operations every block shares: counters, the two links and the two surfaces, the Report Queue's
entry rules (chapter 9) and the reading and writing of stored rows (section 7.7). -/

namespace Sys2Proof.Machine

/-! ## Counters -/

/-- One more on a 16-bit counter that saturates at 65535 (R17, R38, R135, R162, R165). -/
def sat16 (n : Nat) : Nat := min 65535 (n + 1)

/-- One more on a count that saturates at 255 (section 1.2, R23). -/
def sat8 (n : Nat) : Nat := min 255 (n + 1)

/-- One more on an 8-bit count that wraps (R66). -/
def wrap8 (n : Nat) : Nat := (n + 1) % 256

/-! ## Links, surfaces, tables -/

/-- The sensor link of a surface. -/
def State.link (s : State) : Surface → Link
  | .pad => s.padLink
  | .panel => s.panelLink

/-- The state with one link replaced. -/
def State.setLink (s : State) (l : Surface) (v : Link) : State :=
  { s with
    padLink := (match l with | .pad => v | .panel => s.padLink),
    panelLink := (match l with | .pad => s.panelLink | .panel => v) }

/-- The units of a surface. -/
def State.unit (s : State) : Surface → SurfaceUnit
  | .pad => s.pad
  | .panel => s.panel

/-- The state with one surface's units replaced. -/
def State.setUnit (s : State) (f : Surface) (v : SurfaceUnit) : State :=
  { s with
    pad := (match f with | .pad => v | .panel => s.pad),
    panel := (match f with | .pad => s.panel | .panel => v) }

/-- The state with one surface's context replaced. -/
def State.setContext (s : State) (f : Surface) (c : Context) : State :=
  s.setUnit f { s.unit f with context := c }

/-- The state with the Track Table's slots replaced. -/
def State.setSlots (s : State) (slots : List (Option Track)) : State :=
  { s with tracks := { s.tracks with slots := slots } }

/-- The enable in force of a surface (R43). -/
def State.enabled (s : State) : Surface → Bool
  | .pad => s.command.enables.pad
  | .panel => s.command.enables.panel

/-- A table of the store. -/
def TableStore.table (st : TableStore) : Table → TableState
  | .posture => st.posture
  | .zone => st.zone
  | .cls => st.cls
  | .gesture => st.gesture
  | .pen => st.pen

/-- The store with one table replaced. -/
def TableStore.setTable (st : TableStore) (t : Table) (v : TableState) : TableStore :=
  { st with
    posture := if t = .posture then v else st.posture,
    zone := if t = .zone then v else st.zone,
    cls := if t = .cls then v else st.cls,
    gesture := if t = .gesture then v else st.gesture,
    pen := if t = .pen then v else st.pen }

/-- The rows of a bank. -/
def TableState.bank (t : TableState) : Bank → List StoredRow
  | .a => t.bankA
  | .b => t.bankB

/-- The table with the rows of a bank replaced. -/
def TableState.setBank (t : TableState) (k : Bank) (rows : List StoredRow) : TableState :=
  { t with
    bankA := (match k with | .a => rows | .b => t.bankA),
    bankB := (match k with | .a => t.bankB | .b => rows) }

/-- The other bank. -/
def Bank.other : Bank → Bank
  | .a => .b
  | .b => .a

/-- The active bank of a table (R116). -/
def TableStore.active (st : TableStore) (t : Table) : Bank := (st.table t).select

/-- The staging bank of a table (R116). -/
def TableStore.staging (st : TableStore) (t : Table) : Bank := (st.table t).select.other

/-- The staging status of a table (R117). -/
def TableStore.status (st : TableStore) (t : Table) : Staging := (st.table t).status

/-- The store with a table's staging status replaced. -/
def TableStore.setStatus (st : TableStore) (t : Table) (v : Staging) : TableStore :=
  st.setTable t { st.table t with status := v }

/-- The store with the staging status of every table of a list replaced. -/
def TableStore.setStatuses (v : Staging) : List Table → TableStore → TableStore
  | [], st => st
  | t :: ts, st => TableStore.setStatuses v ts (st.setStatus t v)

/-- Whether a ZONE row is locked: rows 0..k-1 of every page (R134). -/
def TableStore.locked (st : TableStore) (t : Table) (row : Nat) : Bool :=
  t == .zone && decide (row < 96) && decide (row % 24 < st.lock)

/-! ## The attention line (R153) -/

/-- The bit of a data stream's class in the attention mask (11.4). -/
def DataStream.bit : DataStream → Nat
  | .pad => 0
  | .panel => 1
  | .pen => 2

/-- The data stream of a surface (R151). -/
def surfaceStream : Surface → DataStream
  | .pad => .pad
  | .panel => .panel

/-- A record's bit in the attention mask; a RESPONSE draws attention always (R151, R153). -/
def Record.attentionBit : Record → Option Nat
  | .contactFrame _ _ => some 1
  | .pointer _ _ _ => some 0
  | .pen _ _ => some 2
  | .gesture f _ _ _ _ _ _ => some (surfaceStream f).bit
  | .event e => some (4 + e.kind)
  | .response _ => none
  | .passUp _ _ _ => some 3
  | .resync _ st => some st.stream.bit

/-- Whether a record is of an attention-enabled class (R153). -/
def Record.draws (mask : BitVec 18) (r : Record) : Bool :=
  match r.attentionBit with
  | some k => mask.getLsbD k
  | none => true

/-- The queue holds a record of an attention-enabled class: exactly then ATTN_N is asserted (R153). -/
def ReportQueue.drawsAttention (q : ReportQueue) : Bool := q.records.any (Record.draws q.attentionMask)

/-- The line re-evaluated (R153). -/
def ReportQueue.evaluate (q : ReportQueue) : ReportQueue := { q with attn := q.drawsAttention }

/-! ## Entering the queue (R155 to R160) -/

/-- A record joins at the tail, and the line is re-evaluated (R151, R153). -/
def ReportQueue.enter (q : ReportQueue) (r : Record) : ReportQueue :=
  { q with records := q.records ++ [r] }.evaluate

/-- The head leaves, and the line is re-evaluated (R161, R153). -/
def ReportQueue.remove (q : ReportQueue) : ReportQueue :=
  { q with records := q.records.tail }.evaluate

/-- Whether an event's kind is reported (R152). -/
def ReportQueue.reports (q : ReportQueue) (e : Event) : Bool := q.reportMask.getLsbD e.kind

/-- An event raised: kept out by the mask, entered below 48 records, else dropped and counted (R152, R159). -/
def ReportQueue.raise (q : ReportQueue) (e : Event) : ReportQueue :=
  if q.reports e then
    if q.records.length < 48 then q.enter (.event e) else { q with lost := sat16 q.lost }
  else q

/-- Events raised one after another. -/
def ReportQueue.raiseAll (q : ReportQueue) : List Event → ReportQueue
  | [] => q
  | e :: es => ReportQueue.raiseAll (q.raise e) es

/-- A response offered: it enters below 48 records, else it waits at the queue (R160). -/
def ReportQueue.offerResponse (q : ReportQueue) (r : Response) : ReportQueue :=
  if q.records.length < 48 then q.enter (.response r) else { q with waiting := some r }

/-- A BUSY answer: it enters below 48 records, else it is dropped and counted (R160). -/
def ReportQueue.offerBusy (q : ReportQueue) (kind : BitVec 6) : ReportQueue :=
  if q.records.length < 48 then q.enter (.response { kind := kind, status := .busy, result := [] })
  else { q with lost := sat16 q.lost }

/-- The resync state of a data stream: none, or its dropped count (R156). -/
def ReportQueue.resync (q : ReportQueue) : DataStream → Option Nat
  | .pad => q.resyncPad
  | .panel => q.resyncPanel
  | .pen => q.resyncPen

/-- The queue with a stream's resync state replaced. -/
def ReportQueue.setResync (q : ReportQueue) (d : DataStream) (v : Option Nat) : ReportQueue :=
  { q with
    resyncPad := (match d with | .pad => v | .panel => q.resyncPad | .pen => q.resyncPad),
    resyncPanel := (match d with | .pad => q.resyncPanel | .panel => v | .pen => q.resyncPanel),
    resyncPen := (match d with | .pad => q.resyncPen | .panel => q.resyncPen | .pen => v) }

/-- A member of an offer group (R154): a data record of a stream, or an event. -/
inductive Offer where
  | data (stream : DataStream) (r : Record)
  | event (e : Event)
deriving DecidableEq, Repr

/-- One data record offered (R155 to R157). The flag says that a RESYNC record took its place, after
which the group's later records of the stream are absorbed. -/
def ReportQueue.offerData (restate : DataStream → Restated) (q : ReportQueue) (d : DataStream) (r : Record) :
    ReportQueue × Bool :=
  match q.resync d with
  | none =>
    if q.records.length < 40 then (q.enter r, false) else (q.setResync d (some 1), false)
  | some n =>
    if q.records.length ≤ 32 then ((q.enter (.resync n (restate d))).setResync d none, true)
    else (q.setResync d (some (sat16 n)), false)

/-- An offer group entered one record after another (R154, R157). -/
def ReportQueue.offerAll (restate : DataStream → Restated) : List Offer → List DataStream → ReportQueue → ReportQueue
  | [], _, q => q
  | .event e :: rest, absorbed, q => ReportQueue.offerAll restate rest absorbed (q.raise e)
  | .data d r :: rest, absorbed, q =>
    if d ∈ absorbed then ReportQueue.offerAll restate rest absorbed q
    else
      let (q', took) := q.offerData restate d r
      ReportQueue.offerAll restate rest (if took then d :: absorbed else absorbed) q'

/-- Inserts a track before the first of a larger contact id. -/
def insertById (t : Track) : List Track → List Track
  | [] => [t]
  | u :: us => if t.id ≤ u.id then t :: u :: us else u :: insertById t us

/-- Tracks in ascending contact id. -/
def sortById : List Track → List Track
  | [] => []
  | t :: ts => insertById t (sortById ts)

/-- The tracks of a surface, in ascending slot number. -/
def tracksOf (f : Surface) (slots : List (Option Track)) : List Track :=
  slots.filterMap (fun o => o.bind (fun t => if t.surface = f then some t else none))

/-- The button state as a record carries it. -/
def Button.buttons : Button → Buttons
  | .none => { left := false, right := false, middle := false }
  | .left => { left := true, right := false, middle := false }
  | .right => { left := false, right := true, middle := false }

/-- The winning code of a context if it is ACTIVE, else 0 (R158). -/
def Context.activeCode (c : Context) : Nat :=
  if c.state = .active then (c.winner.map (fun w => w.rule.code)).getD 0 else 0

/-- The sample values of the leaving record: pressure 0, hover 255, barrel and eraser clear (R70). -/
def PenSample.leaving (p : PenSample) : PenSample :=
  { p with pressure := 0, hover := 255, barrel := false, eraser := false }

/-- The contacts of a PANEL RESYNC record: LIVE panel tracks without an end mark, in ascending id (R158). -/
def resyncContacts (slots : List (Option Track)) : List Contact :=
  (sortById ((tracksOf .panel slots).filter (fun t => t.state == .live && !t.endMark))).map
    (fun t => { id := t.id, x := t.x, y := t.y, area := t.area })

/-- The state a RESYNC record carries, as it stands at the record's entry (R158). -/
def State.restate (s : State) : DataStream → Restated
  | .pad => .pad s.gesture.button.buttons s.pad.context.activeCode
  | .panel => .panel s.panel.lastTime s.panel.context.activeCode (resyncContacts s.tracks.slots)
  | .pen =>
    .pen s.pen.state
      (if s.pen.state = .absent ∨ s.pen.state = .linger then s.pen.lastSample.map PenSample.leaving
       else s.pen.lastSample)

/-- An offer group of one producer (R154). -/
def State.offer (s : State) (group : List Offer) : State :=
  { s with queue := ReportQueue.offerAll s.restate group [] s.queue }

/-- An event raised. -/
def State.raise (s : State) (e : Event) : State := { s with queue := s.queue.raise e }

/-- A command answered: the response is offered, and the slot is FREE once it has entered (R170). -/
def State.respond (s : State) (kind : BitVec 6) (status : Status) (result : Bytes) : State :=
  { s with
    queue := s.queue.offerResponse { kind := kind, status := status, result := result },
    command := { s.command with slot := if s.queue.records.length < 48 then none else s.command.slot } }

/-- A PASSUP record offered, or PASS_DROP with reason QUEUE in its place (R12, R155). -/
def State.offerPassUp (s : State) (l : Surface) (kind : BitVec 6) (payload : Bytes) : State :=
  { s with
    queue := if s.queue.records.length < 40 then s.queue.enter (.passUp l kind payload)
             else s.queue.raise (.passDrop l .queue) }

/-! ## Stored rows (R116, R131 to R133) -/

/-- A stored row; a row number past the table's end is not used by any reader. -/
def TableStore.row (st : TableStore) (t : Table) (k : Bank) (n : Nat) : StoredRow :=
  ((st.table t).bank k).getD n (StoredRow.fresh (defaultRow t))

/-- A row written: its entry leaves the Row Fault List (R133). -/
def TableStore.writeRow (st : TableStore) (t : Table) (k : Bank) (n : Nat) (v : StoredRow) : TableStore :=
  { st.setTable t ((st.table t).setBank k (((st.table t).bank k).set n v)) with
    faults := st.faults.filter (fun e => e != { table := t, bank := k, row := n }) }

/-- The condition READ_ROWS reports for a row (R129). -/
inductive Condition where
  | good
  | corrected
  | faulted
  | inert
deriving DecidableEq, Repr

/-- A row as read: its bytes (the inert row bytes when it is faulted, R132), whether it reads as inert, and
its condition. -/
structure RowView where
  bytes : Bytes
  inert : Bool
  condition : Condition
deriving DecidableEq, Repr

/-- What a read of a stored row finds (R131, R132; log entry 16 for a corrected row with its mark set). -/
def StoredRow.view (t : Table) (r : StoredRow) : RowView :=
  match r.integrity with
  | .intact =>
    if r.inert then { bytes := r.bytes, inert := true, condition := .inert }
    else { bytes := r.bytes, inert := false, condition := .good }
  | .singleBit => { bytes := r.bytes, inert := r.inert, condition := .corrected }
  | .uncorrectable => { bytes := defaultRow t, inert := true, condition := .faulted }

/-- The bytes a reader uses: the inert row bytes when the row reads as inert (R132). -/
def RowView.used (t : Table) (v : RowView) : Bytes := if v.inert then defaultRow t else v.bytes

/-- The row is on the Row Fault List. -/
def TableStore.listed (st : TableStore) (t : Table) (k : Bank) (n : Nat) : Bool :=
  st.faults.any (fun e => e == { table := t, bank := k, row := n })

/-- The store after a read of one row: a single-bit error is rewritten and counted, an uncorrectable
error goes on the Row Fault List or sets the overflow flag (R131, R133). -/
def TableStore.afterRead (st : TableStore) (t : Table) (k : Bank) (n : Nat) : TableStore :=
  match (st.row t k n).integrity with
  | .intact => st
  | .singleBit =>
    { st.writeRow t k n { st.row t k n with integrity := .intact } with corrected := sat16 st.corrected }
  | .uncorrectable =>
    if st.listed t k n then st
    else if st.faults.length < 8 then
      { st with faults := st.faults ++ [{ table := t, bank := k, row := n }] }
    else { st with overflow := true }

/-- Whether a read of one row raises TABLE_FAULT: a faulted row added to the list (R133). -/
def TableStore.newFault (st : TableStore) (t : Table) (k : Bank) (n : Nat) : Bool :=
  (st.row t k n).integrity == .uncorrectable && !st.listed t k n && decide (st.faults.length < 8)

/-- The state after a read of one row; its TABLE_FAULT is offered at the read (R133). -/
def State.afterRead (s : State) (t : Table) (k : Bank) (n : Nat) : State :=
  { s with
    store := s.store.afterRead t k n,
    queue := if s.store.newFault t k n then s.queue.raise (.tableFault t k n) else s.queue }

/-- The view a read of one row gives. -/
def State.viewRow (s : State) (t : Table) (k : Bank) (n : Nat) : RowView := (s.store.row t k n).view t

/-- The state after reads of several rows in order. -/
def State.afterReads (t : Table) (k : Bank) : List Nat → State → State
  | [], s => s
  | n :: ns, s => State.afterReads t k ns (s.afterRead t k n)

/-- The views that reads of several rows in order give. -/
def State.viewRows (t : Table) (k : Bank) : List Nat → State → List RowView
  | [], _ => []
  | n :: ns, s => s.viewRow t k n :: State.viewRows t k ns (s.afterRead t k n)

/-- A read of one row of the active bank, outside or under a hold (R116). -/
def State.readActive (s : State) (t : Table) (n : Nat) : State := s.afterRead t (s.store.active t) n

/-- The bytes of a row of the active bank as a reader uses them. -/
def State.activeBytes (s : State) (t : Table) (n : Nat) : Bytes :=
  (s.viewRow t (s.store.active t) n).used t

/-- The current POSTURE row (R41). -/
def State.postureRow (s : State) : PostureRow := postureOf (s.activeBytes .posture s.command.select)

/-- The state after a read of the current POSTURE row (R41). -/
def State.readPosture (s : State) : State := s.readActive .posture s.command.select

/-- The CLASS profile of an index (R77). -/
def State.profile (s : State) (n : Nat) : Profile := profileOf (s.activeBytes .cls n)

end Sys2Proof.Machine
end

