-- ==== Sys2Proof/Machine/Flags.lean ====
section
/-! DEFINITION. The conditions the rules derive from the state: when the watches and timers run (R9, R142), the
scan setting a link should have (R137, R138), and which at-once steps are due (log entry 1). -/

namespace Sys2Proof.Machine

/-! ## Stall watch and auto-idle timer -/

/-- No transition is in flight: the mode is settled (R137). -/
def State.settled (s : State) : Bool := s.mode.transition.isNone

/-- The conditions under which a link's stall watch runs (R9). -/
def State.watchHolds (s : State) (l : Surface) : Bool :=
  (s.link l).state == .up && (s.mode.mode == .active || s.mode.mode == .idle) && s.settled
    && !(s.link l).scanChange && s.enabled l

/-- The full stall time in ms: 100 in ACTIVE, 500 in IDLE (R9). -/
def State.stallTime (s : State) : Nat := if s.mode.mode = .active then 100 else 500

/-- A timer kept in step with its condition: it starts when the condition comes to hold and stops when it
stops holding (R9, R142). -/
def Timer.follow (t : Timer) (holds : Bool) (full : Nat) : Timer :=
  if holds then some (t.getD full) else none

/-- A link's stall watch brought in step with its conditions (R9). -/
def State.followWatch (s : State) (l : Surface) : Link :=
  { s.link l with watch := Timer.follow (s.link l).watch (s.watchHolds l) s.stallTime }

/-- Every slot of the Track Table is FREE. -/
def State.noTracks (s : State) : Bool := s.tracks.slots.all Option.isNone

/-- The conditions under which the auto-idle timer runs (R142). -/
def State.autoIdleHolds (s : State) : Bool :=
  s.mode.mode == .active && s.settled && s.mode.delay != 0 && s.noTracks && s.pen.state == .absent
    && s.mode.setMode.isNone

/-- The end of every step: the two stall watches and the auto-idle timer follow their conditions (R9, R142). -/
def State.finish (s : State) : State :=
  { s with
    padLink := s.followWatch .pad,
    panelLink := s.followWatch .panel,
    mode := { s.mode with
      autoIdle := Timer.follow s.mode.autoIdle s.autoIdleHolds (100 * s.mode.delay) } }

/-! ## Scan settings -/

/-- The desired setting of a link's surface in a mode; none in WAKING (R137). -/
def desiredSetting (m : Mode) (enabled : Bool) : Option Setting :=
  match m with
  | .active => some (if enabled then .full else .off)
  | .idle => some (if enabled then .reduced else .off)
  | .doze => some (if enabled then .wakeOnTouch else .off)
  | .sleep => some .off
  | .waking => none

/-- The scan change a link is to be given, none where R138 gives none. -/
def State.scanNeeded (s : State) (l : Surface) : Option Setting :=
  if s.mode.mode = .sleep ∧ s.mode.transition = none then none
  else
    match desiredSetting s.mode.mode (s.enabled l) with
    | some v => if v = (s.link l).commanded then none else some v
    | none => none

/-- A transition toward a mode is in flight (R4, R8). -/
def State.heading (s : State) (m : Mode) : Bool :=
  match s.mode.transition with
  | some t => t.target == m
  | none => false

/-- R4's discarding modes: SLEEP, WAKING, DOZE, or a transition toward SLEEP or DOZE. -/
def State.discardingMode (s : State) : Bool :=
  s.mode.mode == .sleep || s.mode.mode == .waking || s.mode.mode == .doze || s.heading .sleep || s.heading .doze

/-! ## Steps that are taken at once -/

/-- The rows whose step the spec takes at once, in the order in which the model takes those due together
(log entries 1 and 13). -/
inductive Due where
  | softReset
  | forcedEnd (f : Surface)
  | penDrop
  | swap
  | wakePhaseEnd
  | transitionComplete
  | setModeStart
  | senseTake (f : Surface)
  | penTake
deriving DecidableEq, Repr

/-- All of them in that order. -/
def Due.all : List Due :=
  [.softReset, .forcedEnd .pad, .forcedEnd .panel, .penDrop, .swap, .wakePhaseEnd, .transitionComplete,
   .setModeStart, .senseTake .pad, .senseTake .panel, .penTake]

/-- A copy is in flight on a table (R117). -/
def TableStore.copying (st : TableStore) (t : Table) : Bool := st.status t == .copying

/-- SOFT_RESET takes effect once no copy and no transmission is in flight (R149). -/
def State.softResetDue (s : State) : Bool :=
  s.command.softReset && !allTables.any s.store.copying && s.padLink.sending.isNone && s.panelLink.sending.isNone

/-- The wake phase ends once every queried link has its outcome and the wake pass has ended (R141). -/
def State.wakePhaseOver (s : State) : Bool :=
  (match s.mode.transition with
   | some t => t.phase == .wake
   | none => false)
    && s.padLink.outcome != .awaiting && s.panelLink.outcome != .awaiting && s.mode.wakeCount.isSome

/-- A SCAN phase is complete when no scan change is in flight on either link (R139). -/
def State.scanPhaseOver (s : State) : Bool :=
  (match s.mode.transition with
   | some t => t.phase == .scan
   | none => false)
    && !s.padLink.scanChange && !s.panelLink.scanChange

/-- A waiting SET_MODE may start (R147). -/
def State.setModeReady (s : State) : Bool :=
  match s.mode.setMode with
  | some m => !m.driving && s.settled && (m.target != .sleep || s.mode.dwell.isNone)
  | none => false

/-- A sense operation takes its waiting frame (R6); a pending forced end goes first (R31). -/
def State.senseTakeDue (s : State) (f : Surface) : Bool :=
  (s.unit f).op.isNone && (s.unit f).slot.frame.isSome && s.store.commit.isNone && !(s.unit f).forcedPending

/-- The pen operation takes its waiting frame (R6); a pending drop goes first (R65). -/
def State.penTakeDue (s : State) : Bool :=
  s.pen.op.isNone && s.pen.slot.frame.isSome && s.store.commit.isNone && !s.pen.dropPending

/-- Whether an at-once step is due. -/
def State.isDue (s : State) : Due → Bool
  | .softReset => s.softResetDue
  | .forcedEnd f => (s.unit f).forcedPending && (s.unit f).op.isNone
  | .penDrop => s.pen.dropPending && s.pen.op.isNone
  | .swap => s.store.commit.isSome && s.store.holds == 0
  | .wakePhaseEnd => s.wakePhaseOver
  | .transitionComplete => s.scanPhaseOver
  | .setModeStart => s.setModeReady
  | .senseTake f => s.senseTakeDue f
  | .penTake => s.penTakeDue

/-- The first at-once step due. -/
def State.nextDue (s : State) : Option Due := Due.all.find? s.isDue

end Sys2Proof.Machine
end

