-- ==== Sys2Proof/Machine/Tracks.lean ====
section
/-! DEFINITION. The Track Unit, the Palm Filter and the Zone Map over the Track Table: matching, births,
classification, re-classification, confirmation, ends, entries and release (chapters 2, 3 and 5). -/

namespace Sys2Proof.Machine

/-! ## Distances (00, Conventions) -/

/-- The distance of two coordinates on one axis. -/
def absDiff (m n : Nat) : Nat := (m - n) + (n - m)

/-- The squared Euclidean distance of two points. -/
def sqDist (x y u v : Nat) : Nat := absDiff x u * absDiff x u + absDiff y v * absDiff y v

/-! ## Matching (R22, R23) -/

/-- Among the unmatched candidates within reach, the place of the nearest and its squared distance; of
several at the smallest distance, the first (R22). -/
def nearest (x y reach : Nat) : List Candidate → Option (Nat × Nat)
  | [] => none
  | c :: cs =>
    let rest := (nearest x y reach cs).map (fun p => (p.1 + 1, p.2))
    let d := sqDist x y c.x c.y
    if d ≤ reach then
      match rest with
      | some (i, e) => if e < d then some (i, e) else some (0, d)
      | none => some (0, d)
    else rest

/-- A track that took a candidate (R23). -/
def Track.matchedTo (t : Track) (c : Candidate) : Track :=
  { t with x := c.x, y := c.y, area := c.area, major := c.major, missed := 0, matched := sat8 t.matched,
           age := sat8 t.age, matchedNow := true }

/-- A track that took none (R23). -/
def Track.unmatched (t : Track) : Track := { t with missed := sat8 t.missed, age := sat8 t.age }

/-- Stage 2 over the slots in ascending number: the updated slots, and the candidates left over in
candidate order. -/
def matchSlots (f : Surface) (reach : Nat) : List (Option Track) → List Candidate →
    List (Option Track) × List Candidate
  | [], cs => ([], cs)
  | none :: slots, cs =>
    let (rest, left) := matchSlots f reach slots cs
    (none :: rest, left)
  | some t :: slots, cs =>
    if t.surface = f then
      match nearest t.x t.y reach cs with
      | some (i, _) =>
        let c := cs.getD i { x := 0, y := 0, area := 0, peak := 0, major := 0, minor := 0 }
        let (rest, left) := matchSlots f reach slots (cs.eraseIdx i)
        (some (t.matchedTo c) :: rest, left)
      | none =>
        let (rest, left) := matchSlots f reach slots cs
        (some t.unmatched :: rest, left)
    else
      let (rest, left) := matchSlots f reach slots cs
      (some t :: rest, left)

/-! ## Contact ids and the allocator (R24, R25) -/

/-- Some occupied slot of either surface holds the id. -/
def idHeld (slots : List (Option Track)) (id : Nat) : Bool :=
  slots.any (fun o => match o with | some t => t.id == id | none => false)

/-- The id after an id, wrapping from 255 to 1. -/
def idAfter (id : Nat) : Nat := if id = 255 then 1 else id + 1

/-- The first id from the pointer on that no occupied slot holds; at most 20 slots are occupied, so 21
tries are enough (R24). -/
def freshId (slots : List (Option Track)) : Nat → Nat → Nat
  | 0, id => id
  | n + 1, id => if idHeld slots id then freshId slots n (idAfter id) else id

/-- The lowest-numbered FREE slot (R25). -/
def freeSlot (slots : List (Option Track)) : Option Nat := slots.findIdx? Option.isNone

/-- The other surface. -/
def otherSurface : Surface → Surface
  | .pad => .panel
  | .panel => .pad

/-- The surfaces that the operand of SLOT_REQUEST names. -/
def namesSurface (who : Requesters) (f : Surface) : Bool :=
  match who, f with
  | .both, _ => true
  | .pad, .pad => true
  | .panel, .panel => true
  | .pad, .panel => false
  | .panel, .pad => false

/-- A surface's operation has a request waiting: an unmatched candidate not yet answered (R25). -/
def State.requesting (s : State) (f : Surface) : Bool :=
  match (s.unit f).op with
  | some op => !op.waiting.isEmpty
  | none => false

/-- The surface the allocator answers: of two waiting, the one it did not answer last (R25). -/
def State.served (s : State) (who : Requesters) : Option Surface :=
  let pad := namesSurface who .pad && s.requesting .pad
  let panel := namesSurface who .panel && s.requesting .panel
  if pad && panel then some (otherSurface s.tracks.lastServed)
  else if pad then some .pad
  else if panel then some .panel
  else none

/-! ## Zone lookup (R49 to R51) -/

/-- The rank of a kind (R51). -/
def ZoneKind.rank : ZoneKind → Nat
  | .none => 0
  | .edge => 1
  | .guard => 2
  | .rclick => 3
  | .pass => 4
  | .block => 5

/-- A zone contains a point (R50). -/
def ZoneRow.contains (z : ZoneRow) (f : Surface) (x y : Nat) : Bool :=
  z.kind != .none && z.surface == some f && decide (z.xLo ≤ x) && decide (x < z.xHi)
    && decide (z.yLo ≤ y) && decide (y < z.yHi)

/-- The governing kind among rows: the highest rank that contains the point. Rows of one rank are of one
kind, so the row that wins the tie gives the same answer (R51). -/
def governing (f : Surface) (x y : Nat) : List ZoneRow → ZoneKind
  | [] => .none
  | z :: zs =>
    let rest := governing f x y zs
    if z.contains f x y ∧ rest.rank ≤ z.kind.rank then z.kind else rest

/-- The 24 flat row numbers of a posture's page (R51). -/
def pageRows (posture : Nat) : List Nat := (List.range 24).map (fun r => posture * 24 + r)

/-- The state after a zone lookup: all 24 rows of the page have been read (R51). -/
def State.afterLookup (s : State) (posture : Nat) : State :=
  s.afterReads .zone (s.store.active .zone) (pageRows posture)

/-- The answer of a zone lookup (R51). -/
def State.lookup (s : State) (f : Surface) (x y posture : Nat) : ZoneKind :=
  governing f x y
    ((s.viewRows .zone (s.store.active .zone) (pageRows posture)).map (fun v => zoneOf (v.used .zone)))

/-! ## Palm tests (R76 to R83) -/

/-- The palm test fails (R76). -/
def palmFails (p : Profile) (zone : ZoneKind) (area major : Nat) : Bool :=
  decide ((if zone = .guard then p.guardArea else p.palmArea) ≤ area) || decide (p.palmLength ≤ major)

/-- The guard is active and contains a point, edges included (R67). -/
def PenGuard.covers (g : PenGuard) (x y : Nat) : Bool :=
  g.active && decide (g.xMin ≤ x) && decide (x ≤ g.xMax) && decide (g.yMin ≤ y) && decide (y ≤ g.yMax)

/-- A source of the neighbour test: HELD as PALM or NEAR_PALM (R83). -/
def Track.palmSource (t : Track) : Bool := t.state == .held .palm || t.state == .held .nearPalm

/-- A source of the surface lies within the neighbour radius of a point (R83). -/
def nearPalm (f : Surface) (radius x y : Nat) (slots : List (Option Track)) : Bool :=
  (tracksOf f slots).any (fun t => t.palmSource && decide (sqDist x y t.x t.y ≤ radius * radius))

/-- Birth classification: the reason of the first step that holds, none for TENTATIVE (R78). -/
def classify (f : Surface) (op : SenseOp) (zone : ZoneKind) (slots : List (Option Track)) (c : Candidate) :
    Option HeldReason :=
  if zone = .block then some .zone
  else if f = .panel ∧ zone ≠ .pass ∧ op.guard.covers c.x c.y = true then some .penGuard
  else if f = .pad ∧ zone ≠ .pass ∧ op.typing = true then some .typing
  else if palmFails op.profile zone c.area c.major then some .palm
  else if nearPalm f op.profile.neighbour c.x c.y slots then some .nearPalm
  else none

/-- The state of a newborn: HELD, or TENTATIVE, which a confirm count of 0 makes LIVE (R27). -/
def birthState (reason : Option HeldReason) (confirm : Nat) : TrackState :=
  match reason with
  | some r => .held r
  | none => if confirm = 0 then .live else .tentative

/-- A newborn track (R27). -/
def newborn (f : Surface) (id : Nat) (c : Candidate) (zone : ZoneKind) (st : TrackState) : Track :=
  { surface := f, id := id, state := st, x := c.x, y := c.y, area := c.area, major := c.major,
    age := 0, matched := 1, missed := 0, birthZone := zone, lastX := c.x, lastY := c.y,
    member := false, matchedNow := true, bornNow := true,
    due := if st = .live then [.down] else [], endMark := false }

/-! ## Stages 4 to 6 -/

/-- A stage applied to every track of a surface, slot by slot. -/
def onTracks (f : Surface) (g : Track → Track) (slots : List (Option Track)) : List (Option Track) :=
  slots.map (fun o => o.map (fun t => if t.surface = f then g t else t))

/-- A track is TENTATIVE or LIVE. -/
def Track.unheld (t : Track) : Bool := t.state == .tentative || t.state == .live

/-- A track turned HELD in stage 4, with CANCEL due if it was LIVE on the panel (R28, R86). -/
def Track.hold (t : Track) (r : HeldReason) : Track :=
  { t with state := .held r,
           due := if t.state = .live ∧ t.surface = .panel then t.due ++ [.cancel] else t.due }

/-- Retro-cancel of one track (R91). -/
def Track.retro (op : SenseOp) (t : Track) : Track :=
  if t.unheld = true ∧ op.guard.covers t.x t.y = true ∧ t.birthZone ≠ .pass ∧ t.age ≤ op.guard.retroWindow then
    t.hold .penGuard
  else t

/-- The ongoing palm test of one track (R85). -/
def Track.ongoing (p : Profile) (t : Track) : Track :=
  if t.unheld = true ∧ t.bornNow = false ∧ palmFails p t.birthZone t.area t.major = true then t.hold .palm else t

/-- Stage 4 (R28, R85, R91). -/
def reclassify (f : Surface) (op : SenseOp) (slots : List (Option Track)) : List (Option Track) :=
  onTracks f (Track.ongoing op.profile)
    (if f = .panel ∧ op.retroDue = true then onTracks f (Track.retro op) slots else slots)

/-- Stage 5 for one track (R29). -/
def Track.confirm (p : Profile) (t : Track) : Track :=
  if t.state = .tentative ∧ p.confirm ≤ t.matched then { t with state := .live, due := t.due ++ [.down] } else t

/-- A track that ends in stage 6, by its state at that moment (R30). -/
def Track.ending (t : Track) : Track :=
  match t.state with
  | .live => { t with endMark := true, due := t.due ++ [.up] }
  | .tentative =>
    if 2 ≤ t.matched then { t with endMark := true, state := .live, due := t.due ++ [.down, .up] }
    else { t with endMark := true }
  | .held _ => { t with endMark := true }

/-- Stage 6 for one track (R30). -/
def Track.ends (p : Profile) (t : Track) : Track := if p.missLimit ≤ t.missed then t.ending else t

/-- The slots whose track is HELD after and was not before: newly HELD in stage 4. -/
def newlyHeld (before after : List (Option Track)) : List Nat :=
  (List.range after.length).filter (fun i =>
    match before.getD i none, after.getD i none with
    | some t, some u => t.unheld && !u.unheld
    | _, _ => false)

/-! ## Entries (R32, R37) -/

/-- A track's entry of a phase, with its values as they stand (R32). -/
def Track.entry (t : Track) (ph : Phase) : Entry := { id := t.id, phase := ph, x := t.x, y := t.y, area := t.area }

/-- A MOVE entry is due: LIVE, nothing else due, and not at its last reported position (R32). -/
def Track.moved (t : Track) : Bool :=
  t.state == .live && t.due.isEmpty && (t.x != t.lastX || t.y != t.lastY)

/-- A track's entries of a frame (R32). -/
def Track.entries (t : Track) : List Entry :=
  if t.moved then [t.entry .move] else t.due.map t.entry

/-- A panel frame's entry list, by ascending contact id (R32). -/
def entryList (slots : List (Option Track)) : List Entry :=
  ((sortById (tracksOf .panel slots)).map Track.entries).flatten

/-- The last reported position after a DOWN or MOVE entry (R32). -/
def Track.reported (t : Track) : Track :=
  if t.moved = true ∨ t.due.contains .down = true then { t with lastX := t.x, lastY := t.y } else t

/-- An entry list cut into CONTACT_FRAME records of at most 20 entries; the fuel is the list's length. -/
def cutEntries (time : Half) : Nat → List Entry → List Record
  | 0, _ => []
  | _ + 1, [] => []
  | n + 1, e :: es => .contactFrame time ((e :: es).take 20) :: cutEntries time n ((e :: es).drop 20)

/-- The CONTACT_FRAME records of an entry list (R32). -/
def contactFrames (time : Half) (es : List Entry) : List Record := cutEntries time es.length es

/-- The CANCEL entries of a panel forced end, one per LIVE track by ascending contact id (R37). -/
def cancelEntries (slots : List (Option Track)) : List Entry :=
  (sortById ((tracksOf .panel slots).filter (fun t => t.state == .live))).map (fun t => t.entry .cancel)

/-! ## Release (R31, R37) -/

/-- A slot at the release: freed if it carries an end mark, else with its frame marks cleared (R31). -/
def releaseSlot (f : Surface) (o : Option Track) : Option Track :=
  match o with
  | none => none
  | some t =>
    if t.surface = f then
      if t.endMark then none else some { t with matchedNow := false, bornNow := false, due := [], endMark := false }
    else some t

/-- All slots at the release of a surface's frame (R31). -/
def releaseSlots (f : Surface) (slots : List (Option Track)) : List (Option Track) := slots.map (releaseSlot f)

/-- Every slot of a surface freed (R37). -/
def freeSurface (f : Surface) (slots : List (Option Track)) : List (Option Track) :=
  slots.map (fun o => match o with | none => none | some t => if t.surface = f then none else some t)

/-- The positions of the LIVE pad tracks in ascending slot number (R53). -/
def clickPositions (slots : List (Option Track)) : List (Nat × Nat) :=
  ((tracksOf .pad slots).filter (fun t => t.state == .live)).map (fun t => (t.x, t.y))

/-- The number of LIVE tracks of a surface (R38). -/
def liveCount (f : Surface) (slots : List (Option Track)) : Nat :=
  ((tracksOf f slots).filter (fun t => t.state == .live)).length

end Sys2Proof.Machine
end

