-- ==== Sys2Proof/Machine/Gestures.lean ====
section
/-! DEFINITION. The Gesture Unit: the gesture step of a sense frame, the rules' tests, wins, cancellation, the
pointer, the buttons and the check at a GESTURE commit (chapter 6). -/

namespace Sys2Proof.Machine

/-! ## Geometry (R101) -/

/-- The integer square root by bits: `k` bits are still to be tried on top of `r`. -/
def isqrtFrom : Nat → Nat → Nat → Nat
  | 0, r, _ => r
  | k + 1, r, n => if (r + 2 ^ k) * (r + 2 ^ k) ≤ n then isqrtFrom k (r + 2 ^ k) n else isqrtFrom k r n

/-- The integer square root, rounded down (R101). -/
def isqrt (n : Nat) : Nat := isqrtFrom (n.log2 / 2 + 1) 0 n

/-- The centroid and spread of the members' last positions, ended members included (R101). -/
def figure (ms : List Member) : Anchor :=
  let n := ms.length
  let cx := (ms.map Member.lastX).foldl (· + ·) 0 / n
  let cy := (ms.map Member.lastY).foldl (· + ·) 0 / n
  { x := cx, y := cy,
    spread := (ms.map (fun m => isqrt (sqDist m.lastX m.lastY cx cy))).foldl (· + ·) 0 / n }

/-- The anchor of a context; one is present wherever it is used (R97). -/
def Context.base (c : Context) : Anchor := c.anchor.getD { x := 0, y := 0, spread := 0 }

/-- The displacement in x: current centroid minus anchor centroid (R104). -/
def Context.dx (c : Context) : Int := ((figure c.members).x : Int) - (c.base.x : Int)

/-- The displacement in y (R104). -/
def Context.dy (c : Context) : Int := ((figure c.members).y : Int) - (c.base.y : Int)

/-! ## Steps 1 and 3: clock, members, joining (R99, R100) -/

/-- Step 1 for one member (R99). -/
def Member.tick (slots : List (Option Track)) (m : Member) : Member :=
  if m.ended then { m with endedNow := false }
  else
    match slots.getD m.slot none with
    | some t =>
      { m with lastX := t.x, lastY := t.y, excursion := max m.excursion (sqDist m.startX m.startY t.x t.y),
               ended := t.endMark, endedNow := t.endMark }
    | none => m

/-- Step 1 (R99). -/
def Context.tick (time : Half) (slots : List (Option Track)) (c : Context) : Context :=
  if c.state = .closed then c
  else
    { c with elapsed := min 65535 (c.elapsed + (time - c.lastSeen).toNat), lastSeen := time,
             members := c.members.map (Member.tick slots) }

/-- The member entry of a joining track; one with an end mark joins ended (R100). -/
def Track.joins (i : Nat) (t : Track) : Member :=
  { slot := i, startX := t.x, startY := t.y, lastX := t.x, lastY := t.y, excursion := 0,
    birthZone := t.birthZone, ended := t.endMark, endedNow := t.endMark }

/-- A context takes a joiner: CLOSED, or GATHERING with fewer than 5 members (R100). -/
def Context.takes (c : Context) : Bool :=
  c.state == .closed || (c.state == .gathering && decide (c.members.length < 5))

/-- A context with a track joined (R100). -/
def Context.withMember (time : Half) (c : Context) (m : Member) : Context :=
  if c.state = .closed then { Context.closed with state := .gathering, members := [m], lastSeen := time }
  else { c with members := c.members ++ [m] }

/-- The member mark of a track set (R97). -/
def markMember (i : Nat) (slots : List (Option Track)) : List (Option Track) :=
  slots.modify i (Option.map (fun t => { t with member := true }))

/-- Tracks joining one after another, each taken or left out (R100, R109). -/
def joinTracks (time : Half) : List (Nat × Track) → Context → List (Option Track) →
    Context × List (Option Track)
  | [], c, slots => (c, slots)
  | (i, t) :: rest, c, slots =>
    if c.takes then joinTracks time rest (c.withMember time (t.joins i)) (markMember i slots)
    else joinTracks time rest c slots

/-- The tracks of a surface that pass a test, with their slot numbers, in ascending slot number. -/
def numbered (f : Surface) (p : Track → Bool) (slots : List (Option Track)) : List (Nat × Track) :=
  (List.range slots.length).filterMap (fun i =>
    match slots.getD i none with
    | some t => if t.surface = f ∧ p t = true then some (i, t) else none
    | none => none)

/-- A track that became LIVE in this frame: its entries due hold a DOWN (R27, R29, R30). -/
def Track.confirmedNow (t : Track) : Bool := t.state == .live && t.due.contains .down

/-- A stray: LIVE, without an end mark, no member (R109). -/
def Track.stray (t : Track) : Bool := t.state == .live && !t.endMark && !t.member

/-! ## Cancellation (R107) -/

/-- A GESTURE record of a rule (R106). -/
def gestureRecord (f : Surface) (r : GestureRule) (ph : GesturePhase) (c : Context) (progress : Int) : Record :=
  .gesture f r.code ph r.fingers (figure c.members).x (figure c.members).y progress

/-- The CANCEL record of a context, if it is ACTIVE (R107). -/
def Context.cancelRecords (f : Surface) (c : Context) : List Record :=
  match c.state, c.winner with
  | .active, some w => [gestureRecord f w.rule .cancel c c.progress]
  | _, _ => []

/-- A cancelled context (R107). -/
def Context.cancelled (c : Context) : Context :=
  { c with state := .finishing, winner := none, candidates := [], anchor := none }

/-- GATHERING, CANDIDATE or ACTIVE: the states that ink cancels (R107). -/
def Context.claims (c : Context) : Bool :=
  c.state == .gathering || c.state == .candidate || c.state == .active

/-- A member that had not ended in an earlier frame was newly HELD in stage 4 (R107). -/
def Context.lostMember (held : List Nat) (c : Context) : Bool :=
  (c.claims || c.state == .passive) && c.members.any (fun m => held.contains m.slot && (!m.ended || m.endedNow))

/-! ## Reading GESTURE rows (R96) -/

/-- A GESTURE row as the Gesture Unit uses it; a faulted or inert row reads as disabled (R96, R132). -/
def State.rule (s : State) (n : Nat) : GestureRule := ruleOf (s.activeBytes .gesture n)

/-- The state after reads of GESTURE rows of the active bank. -/
def State.afterRules (s : State) (rows : List Nat) : State := s.afterReads .gesture (s.store.active .gesture) rows

/-- The rules that reads of GESTURE rows give, with their row numbers. -/
def State.rules (s : State) (rows : List Nat) : List (Nat × GestureRule) :=
  rows.zip ((s.viewRows .gesture (s.store.active .gesture) rows).map (fun v => ruleOf (v.used .gesture)))

/-- All rows of the GESTURE table. -/
def allRules : List Nat := List.range 32

/-- The rows R101 selects for a context. -/
def Context.selects (f : Surface) (c : Context) (r : GestureRule) : Bool :=
  !r.inert && r.surface == some f && r.fingers == c.members.length
    && (!r.edge || c.members.all (fun m => m.birthZone == .edge))

/-- The rows of a list that are selected (R101). -/
def Context.selected (f : Surface) (c : Context) (rs : List (Nat × GestureRule)) : List (Nat × GestureRule) :=
  rs.filter (fun p => c.selects f p.2)

/-! ## Tests of the kinds (R103, R104) -/

/-- The time condition of TAP and the swipes (R104). -/
def GestureRule.inTime (r : GestureRule) (c : Context) : Bool :=
  r.timeMax == 0 || decide (c.elapsed ≤ r.timeMax * 100)

/-- Every member's greatest excursion lies below the distance (R104). -/
def GestureRule.still (r : GestureRule) (c : Context) : Bool :=
  c.members.all (fun m => decide (m.excursion < r.distance * r.distance))

/-- Every member has ended. -/
def Context.allEnded (c : Context) : Bool := c.members.all Member.ended

/-- No member has ended. -/
def Context.noneEnded (c : Context) : Bool := c.members.all (fun m => !m.ended)

/-- A rule is satisfied (R104). -/
def GestureRule.satisfied (r : GestureRule) (c : Context) : Bool :=
  let ax := c.dx.natAbs
  let ay := c.dy.natAbs
  let d : Int := r.distance
  match r.kind with
  | some .tap => c.allEnded && r.inTime c && r.still c
  | some .hold => c.noneEnded && decide (r.timeMin * 100 ≤ c.elapsed) && r.still c
  | some .swipeLeft => decide (ay ≤ ax) && decide (d ≤ -c.dx) && r.inTime c
  | some .swipeRight => decide (ay ≤ ax) && decide (d ≤ c.dx) && r.inTime c
  | some .swipeUp => decide (ax < ay) && decide (d ≤ -c.dy) && r.inTime c
  | some .swipeDown => decide (ax < ay) && decide (d ≤ c.dy) && r.inTime c
  | some .pinchIn => decide (d ≤ (c.base.spread : Int) - (figure c.members).spread)
  | some .pinchOut => decide (d ≤ ((figure c.members).spread : Int) - c.base.spread)
  | none => false

/-- A rule that can no longer be satisfied leaves the set (R103). -/
def GestureRule.struck (r : GestureRule) (c : Context) : Bool :=
  match r.kind with
  | some .tap => (!r.inTime c && !c.allEnded) || !r.still c
  | some .hold => !c.noneEnded || !r.still c
  | some .pinchIn => !c.noneEnded
  | some .pinchOut => !c.noneEnded
  | _ => !c.noneEnded || !r.inTime c

/-- The progress value by the rule's kind (R106). -/
def GestureRule.progress (r : GestureRule) (c : Context) : Int :=
  match r.kind with
  | some .swipeLeft => -c.dx
  | some .swipeRight => c.dx
  | some .swipeUp => -c.dy
  | some .swipeDown => c.dy
  | some .pinchIn => (min 32767 ((figure c.members).spread * 256 / max 1 c.base.spread) : Nat)
  | some .pinchOut => (min 32767 ((figure c.members).spread * 256 / max 1 c.base.spread) : Nat)
  | _ => (c.elapsed / 10 : Nat)

/-! ## Winning (R105, R114) -/

/-- The button state with a tapped button added (R114). -/
def GestureAction.pressOn (a : GestureAction) (btn : Buttons) : Buttons :=
  match a with
  | .report => btn
  | .left => { btn with left := true }
  | .right => { btn with right := true }
  | .middle => { btn with middle := true }

/-- The pair of a tap-click; none when the switch holds the tapped button down (R114). -/
def tapClick (a : GestureAction) (btn : Buttons) : List Record :=
  if a.pressOn btn = btn then [] else [.pointer 0 0 (a.pressOn btn), .pointer 0 0 btn]

/-- The records of a win (R105). -/
def winRecords (f : Surface) (r : GestureRule) (c : Context) (btn : Buttons) : List Record :=
  if r.kind = some .tap then
    if f = .pad ∧ r.action ≠ .report then tapClick r.action btn
    else [gestureRecord f r .instant c (r.progress c)]
  else [gestureRecord f r .begin c (r.progress c)]

/-- The context after a win: ACTIVE but for a TAP (R105). -/
def Context.won (c : Context) (row : Nat) (r : GestureRule) : Context :=
  if r.kind = some .tap then c
  else { c with state := .active, candidates := [], winner := some { row := row, rule := r },
                progress := r.progress c }

/-- A consumed track: HELD with reason GESTURE, CANCEL due on the panel, in place of an UP (R105). -/
def Track.consume (t : Track) : Track :=
  if t.state = .live then
    { t with state := .held .gesture,
             due := if t.surface = .pad then t.due
                    else if t.due.contains .up then t.due.map (fun p => if p = .up then .cancel else p)
                    else t.due ++ [.cancel] }
  else t

/-- Consume of the members that did not end in an earlier frame (R105). -/
def consumeMembers : List Member → List (Option Track) → List (Option Track)
  | [], slots => slots
  | m :: ms, slots =>
    consumeMembers ms
      (if m.ended = true ∧ m.endedNow = false then slots else slots.modify m.slot (Option.map Track.consume))

/-- A win taken (R105). -/
def State.win (s : State) (f : Surface) (row : Nat) (r : GestureRule) : State × List Record :=
  let c := (s.unit f).context
  let slots := if r.consume then consumeMembers c.members s.tracks.slots else s.tracks.slots
  ((s.setContext f (c.won row r)).setSlots slots, winRecords f r c s.gesture.button.buttons)

/-! ## The gesture step (R98) -/

/-- Step 1 (R99). -/
def State.gestureClock (s : State) (f : Surface) (time : Half) : State :=
  s.setContext f ((s.unit f).context.tick time s.tracks.slots)

/-- The context of a surface cancelled, with its CANCEL record (R107). -/
def State.cancelContext (s : State) (f : Surface) : State × List Record :=
  let c := (s.unit f).context
  (s.setContext f c.cancelled, c.cancelRecords f)

/-- Step 2: the held members, then ink, then the winning row as read (R98, R105, R107; log entry 24). -/
def State.gestureCancels (s : State) (f : Surface) (held : List Nat) (ink : Bool) : State × List Record :=
  let c := (s.unit f).context
  if c.lostMember held then s.cancelContext f
  else if ink && f == .panel && c.claims then s.cancelContext f
  else
    match c.state, c.winner with
    | .active, some w =>
      if (s.rule w.row).inert then (s.readActive .gesture w.row).cancelContext f
      else (s.readActive .gesture w.row, [])
    | _, _ => (s, [])

/-- Step 3 (R100). -/
def State.gestureJoins (s : State) (f : Surface) (time : Half) : State :=
  let r := joinTracks time (numbered f Track.confirmedNow s.tracks.slots) (s.unit f).context s.tracks.slots
  (s.setContext f r.1).setSlots r.2

/-- The gather close (R101). -/
def State.gatherClose (s : State) (f : Surface) : State :=
  let c := (s.unit f).context
  let set := (c.selected f (s.rules allRules)).map Prod.fst
  (s.afterRules allRules).setContext f
    { c with anchor := some (figure c.members), candidates := set, recompute := false,
             state := if set.isEmpty then .passive else .candidate }

/-- The early end of a gathering whose members have all ended (R102). -/
def State.earlyEnd (s : State) (f : Surface) : State × List Record :=
  let c := (s.unit f).context
  match (c.selected f (s.rules allRules)).find? (fun p => p.2.kind == some .tap && p.2.satisfied c) with
  | some (row, r) => (s.afterRules allRules).win f row r
  | none => (s.afterRules allRules, [])

/-- Step 4 (R101, R102). -/
def State.gestureGather (s : State) (f : Surface) (gather : Nat) : State × List Record :=
  let c := (s.unit f).context
  if c.state = .gathering then
    if 10 * gather ≤ c.elapsed then (s.gatherClose f, [])
    else if c.allEnded then s.earlyEnd f
    else (s, [])
  else (s, [])

/-- The candidate set made anew where a GESTURE commit calls for it (R103). -/
def State.recompute (s : State) (f : Surface) : State :=
  let c := (s.unit f).context
  if c.recompute then
    (s.afterRules allRules).setContext f
      { c with candidates := (c.selected f (s.rules allRules)).map Prod.fst, recompute := false }
  else s

/-- The evaluation of the candidate set: each row is read, the first satisfied wins, else the rows that can
no longer be satisfied leave (R103). -/
def State.evaluateRules (s : State) (f : Surface) : State × List Record :=
  let c := (s.unit f).context
  let rs := c.selected f (s.rules c.candidates)
  match rs.find? (fun p => p.2.satisfied c) with
  | some (row, r) => (s.afterRules c.candidates).win f row r
  | none =>
    let left := (rs.filter (fun p => !p.2.struck c)).map Prod.fst
    ((s.afterRules c.candidates).setContext f
      { c with candidates := left, state := if left.isEmpty then .passive else .candidate }, [])

/-- Step 5 (R103). -/
def State.gestureEvaluate (s : State) (f : Surface) : State × List Record :=
  if (s.unit f).context.state = .candidate then (s.recompute f).evaluateRules f else (s, [])

/-- Step 6 in ACTIVE (R105). -/
def State.gestureProgress (s : State) (f : Surface) : State × List Record :=
  let c := (s.unit f).context
  match c.winner with
  | some w =>
    if (c.members.filter (fun m => !m.ended)).length < w.rule.fingers then
      (s.setContext f { c with state := .finishing }, [gestureRecord f w.rule .finish c c.progress])
    else if w.rule.progress c = c.progress then (s, [])
    else (s.setContext f { c with progress := w.rule.progress c },
          [gestureRecord f w.rule .update c (w.rule.progress c)])
  | none => (s, [])

/-- Step 7 (R109). -/
def State.gestureClose (s : State) (f : Surface) (time : Half) : State :=
  let c := (s.unit f).context
  if c.state ≠ .closed ∧ c.allEnded = true then
    let r := joinTracks time (numbered f Track.stray s.tracks.slots) Context.closed s.tracks.slots
    (s.setContext f r.1).setSlots r.2
  else s

/-- One step after another, the records kept in the order produced. -/
def andThen (r : State × List Record) (g : State → State × List Record) : State × List Record :=
  ((g r.1).1, r.2 ++ (g r.1).2)

/-- Steps 4 to 6: a context that is ACTIVE before them reports; any other gathers and is evaluated. A win
leaves step 6 to later frames (R98, R105). -/
def State.gestureBody (s : State) (f : Surface) (gather : Nat) : State × List Record :=
  if (s.unit f).context.state = .active then s.gestureProgress f
  else andThen (s.gestureGather f gather) (fun t => t.gestureEvaluate f)

/-- Steps 1 to 7 of the gesture step (R98). -/
def State.gestureStep (s : State) (f : Surface) (time : Half) (gather : Nat) (held : List Nat) (ink : Bool) :
    State × List Record :=
  let r := (s.gestureClock f time).gestureCancels f held ink
  let r := andThen (r.1.gestureJoins f time, r.2) (fun t => t.gestureBody f gather)
  (r.1.gestureClose f time, r.2)

/-! ## The pointer (R110, R111) -/

/-- A slot holds a LIVE track. -/
def liveAt (slots : List (Option Track)) (i : Nat) : Bool :=
  match slots.getD i none with
  | some t => t.state == .live
  | none => false

/-- The slot of the track the pad pointer follows (R110). -/
def followedSlot (c : Context) (slots : List (Option Track)) : Option Nat :=
  match c.state, c.members with
  | .gathering, [m] => if !m.ended && liveAt slots m.slot then some m.slot else none
  | .passive, ms => (ms.find? (fun m => !m.ended && liveAt slots m.slot)).map Member.slot
  | _, _ => none

/-- The output count of an axis, bounded to what a record carries (R111). -/
def boundCount (n : Int) : Int := max (-2048) (min 2047 n)

/-- The remainder's saturation (R111). -/
def boundRemainder (n : Int) : Int := max (-8388608) (min 8388607 n)

/-- The output count of one axis before its bound: the scaled value over 256, toward zero (R111). -/
def rawCount (delta : Int) (gain : Nat) (rem : Int) : Int := Int.tdiv (delta * gain + rem) 256

/-- The motion of one axis: the count carried and the new remainder (R111). -/
def axisMotion (delta : Int) (gain : Nat) (rem : Int) : Int × Int :=
  let n := rawCount delta gain rem
  (boundCount n, boundRemainder (delta * gain + rem - 256 * n + 256 * (n - boundCount n)))

/-- The pointer record with none followed (R110). -/
def PointerRecord.cleared (p : PointerRecord) : PointerRecord := { p with followed := none, remX := 0, remY := 0 }

/-- Step 8 on the pad: the new pointer record and the frame's motion (R110, R111). -/
def pointerStep (p : PointerRecord) (c : Context) (slots : List (Option Track)) (gain : Nat) :
    PointerRecord × Int × Int :=
  match followedSlot c slots with
  | none => (if p.followed = none then p else p.cleared, 0, 0)
  | some i =>
    match slots.getD i none with
    | none => (p.cleared, 0, 0)
    | some t =>
      if p.followed = some i then
        let mx := axisMotion ((t.x : Int) - p.refX) gain p.remX
        let my := axisMotion ((t.y : Int) - p.refY) gain p.remY
        ({ p with refX := t.x, refY := t.y, remX := mx.2, remY := my.2 }, mx.1, my.1)
      else ({ followed := some i, refX := t.x, refY := t.y, remX := 0, remY := 0 }, 0, 0)

/-! ## The check at a GESTURE commit (R108) -/

/-- The winning row of a context read at the swap: its context after, and the records (R108). -/
def Context.recheck (f : Surface) (c : Context) (now : GestureRule) : Context × List Record :=
  match c.state, c.winner with
  | .active, some w => if now.inert = true ∨ now ≠ w.rule then (c.cancelled, c.cancelRecords f) else (c, [])
  | .finishing, some w => if now.inert = true ∨ now ≠ w.rule then ({ c with winner := none }, []) else (c, [])
  | .candidate, _ => ({ c with recompute := true }, [])
  | _, _ => (c, [])

/-- The row that R108 reads for a context, if it holds a winning rule. -/
def Context.watchedRow (c : Context) : Option Nat :=
  if c.state = .active ∨ c.state = .finishing then c.winner.map Winner.row else none

/-- R108 for one surface; a CANCEL record is offered at once. -/
def State.recheckGesture (s : State) (f : Surface) : State :=
  let c := (s.unit f).context
  match c.watchedRow with
  | some n =>
    let r := c.recheck f (s.rule n)
    ((s.readActive .gesture n).setContext f r.1).offer (r.2.map (fun x => .data (surfaceStream f) x))
  | none => s.setContext f (c.recheck f (ruleOf (defaultRow .gesture))).1

end Sys2Proof.Machine
end

