-- ==== Sys2Proof/Machine/Pen.lean ====
section
/-! DEFINITION. The Pen Unit: profile lookup, ink detection, the guard, a pen frame's effect by state, and drops
to ABSENT (chapter 4). -/

namespace Sys2Proof.Machine

/-! ## Profile lookup (R58) -/

/-- All rows of the PEN table. -/
def allPens : List Nat := List.range 8

/-- The rows of the active PEN bank as a lookup uses them, with their numbers: faulted and inert rows take
part in neither search (R58, R132). -/
def State.penRows (s : State) : List (Nat × Bytes) :=
  ((allPens.zip (s.viewRows .pen (s.store.active .pen) allPens)).filter (fun p => !p.2.inert)).map
    (fun p => (p.1, p.2.bytes))

/-- The first row of a serial. -/
def firstPen (serial : Word) (rows : List (Nat × Bytes)) : Option (Nat × Bytes) :=
  rows.find? (fun p => penSerialOf p.2 == serial)

/-- The followed pen that a profile lookup for a serial gives (R58). -/
def State.lookupPen (s : State) (serial : Word) : Followed :=
  match (firstPen serial s.penRows).or (firstPen 0#32 s.penRows) with
  | some (n, b) => { serial := serial, profile := penProfileOf b, source := .row n }
  | none => { serial := serial, profile := fallbackProfile, source := .fallback }

/-- The state after a profile lookup: all eight rows have been read (R58). -/
def State.afterPenLookup (s : State) : State := s.afterReads .pen (s.store.active .pen) allPens

/-! ## State and guard (R61, R66, R67) -/

/-- Ink detection (R61). -/
def penStateFor (f : PenFrame) (p : PenProfile) : PenState :=
  if f.tip = true ∧ p.inkThreshold ≤ f.sample.pressure then .ink else .hover

/-- Whether the guard is active for the state a frame leaves (R66). -/
def guardStands (f : PenFrame) (p : PenProfile) (st : PenState) : Bool :=
  p.hand != .none && (st == .ink || f.tip || decide (f.sample.hover ≤ p.hoverLimit))

/-- The guard evaluated at a frame of R61 or R62: activity, rectangle, counts and retro window (R66, R67, R69). -/
def guardFor (g : PenGuard) (before : PenState) (f : PenFrame) (p : PenProfile) : PenGuard :=
  let st := penStateFor f p
  let on := guardStands f p st
  let x := f.sample.x
  let y := f.sample.y
  let toLow := if p.hand = .left then p.ahead else p.behind
  let toHigh := if p.hand = .left then p.behind else p.ahead
  { active := on,
    xMin := if on then min 16383 (x - toLow) else g.xMin,
    xMax := if on then min 16383 (x + toHigh) else g.xMax,
    yMin := if on then min 10239 (y - p.above) else g.yMin,
    yMax := if on then min 10239 (y + p.below) else g.yMax,
    activation := if on && !g.active then wrap8 g.activation else g.activation,
    ink := if st = .ink ∧ before ≠ .ink then wrap8 g.ink else g.ink,
    retroWindow := p.retroWindow }

/-- The guard of a pen no longer followed (R66, R69). -/
def PenGuard.dropped (g : PenGuard) : PenGuard := { g with active := false, retroWindow := 0 }

/-- The Pen Record and guard once the pen is given up; the last sample stays (R72). -/
def PenUnit.absent (p : PenUnit) : PenUnit :=
  { p with state := .absent, followed := none, conflict := false, linger := none, guard := p.guard.dropped }

/-! ## The effect of a frame (R60 to R64) -/

/-- The serial of the followed pen, 0 when none is followed (R73). -/
def PenUnit.serial (p : PenUnit) : Word :=
  match p.followed with
  | some w => w.serial
  | none => 0#32

/-- HOVER or INK. -/
def PenUnit.near (p : PenUnit) : Bool := p.state == .hover || p.state == .ink

/-- The leaving PEN record with the state after it (R70); in HOVER and INK a last sample is present (R56). -/
def PenUnit.leavingRecord (p : PenUnit) (st : PenState) : Record :=
  .pen st (p.lastSample.getD PenSample.zero).leaving

/-- What a pen frame does. -/
inductive PenAction where
  /-- Discarded under a disabled pen enable (R60). -/
  | disabled
  /-- Takes a pen up, or continues the followed one after a due lookup (R59, R61). -/
  | lookup
  /-- Continues the followed pen under the profile it has (R62). -/
  | continue
  /-- A conflict (R63). -/
  | conflict
  /-- The pen leaves range (R64). -/
  | leaves
  /-- Out of range with no pen near (R64). -/
  | nothing
deriving DecidableEq, Repr

/-- The rule that governs a pen frame, by its flags and the state at its completion (R60, log entry 17). -/
def PenUnit.action (p : PenUnit) (op : PenOp) : PenAction :=
  if op.enabled = false then .disabled
  else if op.frame.inRange = false then (if p.near then .leaves else .nothing)
  else if p.near = false then .lookup
  else if op.frame.serial ≠ p.serial then .conflict
  else if p.refreshDue then .lookup
  else .continue

/-- The Pen Record after a frame acted on under R61 or R62, with the profile it is evaluated under. -/
def PenUnit.acted (p : PenUnit) (f : PenFrame) (w : Followed) : PenUnit :=
  { p with state := penStateFor f w.profile, followed := some w, lastSample := some f.sample, linger := none,
           conflict := if p.near then p.conflict else false,
           guard := guardFor p.guard p.state f w.profile }

/-- PEN_ENTER at a take-up: from ABSENT, or from LINGER with another serial (R61). -/
def PenUnit.enters (p : PenUnit) (f : PenFrame) : Bool :=
  p.state == .absent || (p.state == .linger && f.serial != p.serial)

/-- The state after the pen leaves range: LINGER when the guard stood and the profile lingers (R64). -/
def PenUnit.left (p : PenUnit) : PenUnit :=
  match p.followed with
  | some w =>
    if p.guard.active = true ∧ 0 < w.profile.linger then
      { p with state := .linger, conflict := false, linger := some (10 * w.profile.linger) }
    else p.absent
  | none => p.absent

/-- The records of a frame acted on (R65, R70). -/
def actedGroup (enter : Bool) (f : PenFrame) (st : PenState) : List Offer :=
  (if enter then [.event (.penEnter f.serial)] else []) ++ [.data .pen (.pen st f.sample)]

/-- The state after a pen frame's evaluation, before its records are offered (R60 to R64). -/
def State.penEvaluate (s : State) (op : PenOp) : State :=
  match s.pen.action op with
  | .disabled => { s with pen := if s.pen.state = .absent then s.pen else s.pen.absent }
  | .lookup =>
    { s.afterPenLookup with
      pen := { s.pen.acted op.frame (s.lookupPen op.frame.serial) with refreshDue := false } }
  | .continue =>
    { s with pen :=
        match s.pen.followed with
        | some w => s.pen.acted op.frame w
        | none => s.pen }
  | .conflict => { s with pen := { s.pen with conflict := true } }
  | .leaves => { s with pen := s.pen.left }
  | .nothing => s

/-- The records of a pen frame, but for FRAME_OVERRUN, from the state before and after it (R65). -/
def State.penGroup (s after : State) (op : PenOp) : List Offer :=
  match s.pen.action op with
  | .disabled =>
    if s.pen.near then
      [.data .pen (s.pen.leavingRecord .absent), .event (.penLeave s.pen.serial .disabled)]
    else []
  | .lookup => actedGroup (!s.pen.near && s.pen.enters op.frame) op.frame after.pen.state
  | .continue => actedGroup false op.frame after.pen.state
  | .conflict => if s.pen.conflict then [] else [.event (.penConflict op.frame.serial)]
  | .leaves =>
    [.data .pen (s.pen.leavingRecord after.pen.state), .event (.penLeave s.pen.serial .range)]
  | .nothing => []

/-! ## Drops to ABSENT (R71, R72) -/

/-- The records of a requested drop (R72). -/
def PenUnit.dropGroup (p : PenUnit) : List Offer :=
  if p.near then [.data .pen (p.leavingRecord .absent), .event (.penLeave p.serial .dropped)] else []

/-- A drop to ABSENT taken (R72). -/
def State.takeDrop (s : State) : State :=
  State.offer { s with pen := { s.pen.absent with dropPending := false } } s.pen.dropGroup

/-- A request to drop: taken at once if the pen operation is idle, else pending (R71). -/
def State.requestDrop (s : State) : State :=
  if s.pen.op.isNone then s.takeDrop else { s with pen := { s.pen with dropPending := true } }

end Sys2Proof.Machine
end

