-- ==== Sys2Proof/Machine/Ends.lean ====
section
/-! DEFINITION. Forced ends (section 2.7) and the emptying of waiting slots (R7). -/

namespace Sys2Proof.Machine

/-! ## Forced ends (R36, R37, R47) -/

/-- R47 applies at a pad forced end: a disable asked for the release and a button is still pressed. -/
def State.releaseAtEnd (s : State) (f : Surface) : Bool :=
  f == .pad && s.gesture.releaseOwed && s.gesture.button != .none

/-- The Gesture Unit after a pad forced end: no followed track, an empty click view, R47's release made. -/
def GestureUnit.afterPadEnd (g : GestureUnit) : GestureUnit :=
  { g with pointer := g.pointer.cleared, clickView := [], releaseOwed := false,
           button := if g.releaseOwed then .none else g.button }

/-- The offer group of a forced end (R37, R47, R154). -/
def State.forcedEndGroup (s : State) (f : Surface) : List Offer :=
  (match f with
   | .pad => []
   | .panel => (contactFrames s.panel.lastTime (cancelEntries s.tracks.slots)).map (.data .panel))
    ++ ((s.unit f).context.cancelRecords f).map (.data (surfaceStream f))
    ++ (if s.releaseAtEnd f then [.data .pad (.pointer 0 0 Button.none.buttons)] else [])

/-- The state a forced end leaves, before its records are offered: the surface's slots are FREE, its context
is CLOSED (R37, R109). -/
def State.forcedEndEffect (s : State) (f : Surface) : State :=
  { (s.setUnit f { s.unit f with context := Context.closed, forcedPending := false }).setSlots
      (freeSurface f s.tracks.slots) with
    gesture := match f with | .pad => s.gesture.afterPadEnd | .panel => s.gesture }

/-- A forced end taken (R37). -/
def State.takeForcedEnd (s : State) (f : Surface) : State := (s.forcedEndEffect f).offer (s.forcedEndGroup f)

/-- A forced-end request: taken at once if the surface's operation is idle, else pending (R36). -/
def State.requestForcedEnd (s : State) (f : Surface) : State :=
  if (s.unit f).op.isNone then s.takeForcedEnd f else s.setUnit f { s.unit f with forcedPending := true }

/-! ## Waiting slots (R7) -/

/-- A surface's sense slot emptied without counting (R7). -/
def State.emptySense (s : State) (f : Surface) : State :=
  s.setUnit f { s.unit f with slot := Slot.empty SenseFrame }

/-- The pen slot emptied without counting (R7). -/
def State.emptyPen (s : State) : State := { s with pen := { s.pen with slot := Slot.empty PenFrame } }

/-- The waiting slots of a link emptied: its sense slot, and on the panel link the pen slot (R7). -/
def State.emptySlots (s : State) (l : Surface) : State :=
  match l with
  | .pad => s.emptySense .pad
  | .panel => (s.emptySense .panel).emptyPen

end Sys2Proof.Machine
end

