-- ==== Sys2Proof/Machine/Links.lean ====
section
/-! DEFINITION. The Downlink Arbiters (R13 to R16), the entry of a link into STALLED (R10) and OFF (R8), and scan
changes (R138). -/

namespace Sys2Proof.Machine

/-! ## The arbiter (R15, R16) -/

/-- The arbiter's choice when its transmitter is idle (R16). -/
def Link.arbitrate (l : Link) : Link :=
  match l.sending with
  | some _ => l
  | none =>
    match l.partQueue, l.passDown with
    | p :: rest, _ => { l with partQueue := rest, sending := some (.part p) }
    | [], p :: rest => { l with passDown := rest, sending := some (.host p) }
    | [], [] => l

/-- Two part-originated packets are of one kind (R15). -/
def PartPacket.sameKind : PartPacket → PartPacket → Bool
  | .scanControl _, .scanControl _ => true
  | .idQuery, .idQuery => true
  | .scanControl _, .idQuery => false
  | .idQuery, .scanControl _ => false

/-- A packet originated: it replaces a waiting one of its kind in its place, else joins at the tail (R15). -/
def joinQueue (p : PartPacket) (q : List PartPacket) : List PartPacket :=
  if q.any p.sameKind then q.map (fun x => if p.sameKind x then p else x) else q ++ [p]

/-- A packet originated on a link, and the arbiter's choice that follows (R15, R16). -/
def Link.originate (l : Link) (p : PartPacket) : Link :=
  { l with partQueue := joinQueue p l.partQueue }.arbitrate

/-- A SCAN_CONTROL still waits in the part-originated queue. -/
def Link.newerWaiting (l : Link) : Bool :=
  l.partQueue.any (fun p => match p with | .scanControl _ => true | .idQuery => false)

/-- The timer a completed transmission starts: the settle timer for the SCAN_CONTROL of the commanded
setting, the query's timer for an ID_QUERY (R138, R140; log entry 11). -/
def Link.sent (l : Link) (p : Sending) : Link :=
  match p with
  | .part (.scanControl v) =>
    if l.scanChange = true ∧ v = l.commanded ∧ l.newerWaiting = false then { l with settle := some 20 } else l
  | .part .idQuery => { l with query := some 20 }
  | .host _ => l

/-! ## Scan changes (R138) -/

/-- A link given a scan change toward a setting (R138). -/
def Link.giveScan (l : Link) (v : Setting) : Link :=
  Link.originate { l with commanded := v, scanChange := true, settle := none } (.scanControl v)

/-- A link's desired setting evaluated (R138). -/
def State.evaluateScan (s : State) (l : Surface) : State :=
  match s.scanNeeded l with
  | some v => s.setLink l ((s.link l).giveScan v)
  | none => s

/-- Both links' desired settings evaluated (R138). -/
def State.evaluateScans (s : State) : State := (s.evaluateScan .pad).evaluateScan .panel

/-- A scan change ended: its timer stops (R138). -/
def Link.endScan (l : Link) : Link := { l with scanChange := false, settle := none }

/-- The settings whose acknowledgement brings an OFF link UP (R8). -/
def Setting.scans (v : Setting) : Bool := v == .full || v == .reduced || v == .wakeOnTouch

/-- A link after a SCAN_ACK that ends its scan change (R8, R138). -/
def Link.acked (l : Link) : Link :=
  { l.endScan with state := if l.state = .off ∧ l.commanded.scans = true then .up else l.state }

/-! ## Leaving UP (R8, R10, R14) -/

/-- The PASS_DROP events of a pass-down buffer emptied, in buffer order (R14). -/
def Link.flushEvents (l : Link) (name : Surface) : List Event :=
  l.passDown.map (fun _ => .passDrop name .linkOff)

/-- The link in STALLED: watch stopped, pass-down buffer empty (R10, R14). -/
def Link.stalled (l : Link) : Link := { l with state := .stalled, watch := none, passDown := [] }

/-- LINK_STALL and the PASS_DROP events, one offer group (R10, R154). -/
def State.stallEvents (s : State) (l : Surface) (cause : StallCause) : List Event :=
  .linkStall l cause :: (s.link l).flushEvents l

/-- A link enters STALLED (R10); one that is STALLED stays so (R8). -/
def State.enterStalled (s : State) (l : Surface) (cause : StallCause) : State :=
  if (s.link l).state = .stalled then s
  else
    let t : State :=
      { s.setLink l (s.link l).stalled with queue := s.queue.raiseAll (s.stallEvents l cause) }
    let t := (t.emptySlots l).requestForcedEnd l
    match l with
    | .pad => t
    | .panel => t.requestDrop

/-- A link enters OFF; from UP its pass-down buffer is emptied (R8, R14). -/
def State.enterOff (s : State) (l : Surface) : State :=
  { s.setLink l { s.link l with
      state := .off, watch := none, passDown := if (s.link l).state = .up then [] else (s.link l).passDown } with
    queue := if (s.link l).state = .up then s.queue.raiseAll ((s.link l).flushEvents l) else s.queue }

/-- A timeout of a scan change or an identity query on a link (R8): STALLED, unless a transition toward
SLEEP is in flight. -/
def State.linkTimeout (s : State) (l : Surface) (cause : StallCause) : State :=
  if s.heading .sleep then s else s.enterStalled l cause

/-- A link's recovery: STALLED becomes UP with LINK_BACK (R8, R11). -/
def State.recover (s : State) (l : Surface) : State :=
  { s.setLink l { s.link l with state := if (s.link l).state = .stalled then .up else (s.link l).state } with
    queue := if (s.link l).state = .stalled then s.queue.raise (.linkBack l) else s.queue }

/-! ## Pass-down (R13) -/

/-- The reason for which a host packet is dropped, by the first test that applies; none keeps it (R13). -/
def Link.passDownDrop (l : Link) (kind : BitVec 6) : Option DropReason :=
  if kind = kindScanControl ∨ kind = kindIdQuery then some .reserved
  else if l.state ≠ .up then some .linkOff
  else if 2 ≤ l.passDown.length then some .full
  else none

/-- A host packet at the Downlink Arbiter (R13, R16). -/
def State.passDown (s : State) (l : Surface) (p : HostPacket) : State :=
  match (s.link l).passDownDrop p.kind with
  | some reason => s.raise (.passDrop l reason)
  | none => s.setLink l (Link.arbitrate { s.link l with passDown := (s.link l).passDown ++ [p] })

end Sys2Proof.Machine
end

