-- ==== Sys2Proof/Machine/Modes.lean ====
section
/-! DEFINITION. The Mode Engine's transitions, returns and SET_MODE, and the changes of the enables in force
(chapter 8; section 3.1). -/

namespace Sys2Proof.Machine

/-! ## Transitions -/

/-- The Mode Engine at the start of a transition in its SCAN phase: the mode is its target (R137). -/
def ModeEngine.starting (m : ModeEngine) (target : Mode) (cause : Cause) : ModeEngine :=
  { m with mode := target, transition := some { target := target, phase := .scan, cause := cause } }

/-- A transition that keeps the frame pipelines: toward ACTIVE or IDLE (R142, R143, R145, R147). -/
def State.beginScan (s : State) (target : Mode) (cause : Cause) : State :=
  State.evaluateScans { s with mode := s.mode.starting target cause }

/-- The effects of the start of a transition toward DOZE or SLEEP on slots, tracks and pen (R144, R146). -/
def State.quiet (s : State) : State :=
  ((((s.emptySlots .pad).emptySlots .panel).requestForcedEnd .pad).requestForcedEnd .panel).requestDrop

/-- A transition toward DOZE begins (R144). -/
def State.beginDoze (s : State) : State :=
  (State.quiet { s with mode := s.mode.starting .doze .command }).evaluateScans

/-- A transition toward SLEEP begins (R146). -/
def State.beginSleep (s : State) : State :=
  ((((State.quiet { s with mode := s.mode.starting .sleep .command }).enterOff .pad).enterOff .panel)).evaluateScans

/-- The wake outcome a link starts with, and its ID_QUERY if its surface is enabled (R140). -/
def State.queryLink (s : State) (l : Surface) : State :=
  s.setLink l
    (if s.enabled l then Link.originate { s.link l with outcome := .awaiting } .idQuery
     else { s.link l with outcome := .notQueried })

/-- A transition out of SLEEP begins in its WAKE phase, and the wake pass is requested (R140). -/
def State.beginWake (s : State) (target : Mode) : State :=
  let t := (s.queryLink .pad).queryLink .panel
  { t with
    mode := { t.mode with
      mode := .waking, transition := some { target := target, phase := .wake, cause := .command },
      wakeCount := none },
    store := { t.store with verify := some .wake } }

/-- A link's outcome is REPLIED, or it was not queried (R141). -/
def WakeOutcome.passes (w : WakeOutcome) : Bool := w == .replied || w == .notQueried

/-- The wake passed both checks: the diag toggle inverts (R141). -/
def State.wakePassed (s : State) : Bool :=
  s.padLink.outcome.passes && s.panelLink.outcome.passes && s.mode.wakeCount == some 0

/-- The Mode Engine with the toggle updated, the dwell started and the SCAN phase entered (R141). -/
def State.wokenEngine (s : State) (target : Mode) : ModeEngine :=
  { s.mode with
    mode := target, toggle := s.mode.toggle ^^ s.wakePassed, dwell := some 50, wakeCount := none,
    transition := s.mode.transition.map (fun t => { t with phase := .scan }) }

/-- The DIAG event of a wake (R141). -/
def State.diagEvent (s : State) : Event :=
  .diag s.padLink.outcome s.panelLink.outcome (s.mode.wakeCount.getD 0) (s.mode.toggle ^^ s.wakePassed)

/-- The end of the wake phase (R141). -/
def State.endWakePhase (s : State) : State :=
  match s.mode.transition with
  | some t =>
    let u := State.evaluateScans { s.raise s.diagEvent with mode := s.wokenEngine t.target }
    if t.target = .doze then u.quiet else u
  | none => s

/-! ## Automatic return (R143) -/

/-- A report of a candidate or of a pen in range (R143). -/
def State.reportReturn (s : State) : State :=
  if s.mode.mode = .idle ∧ s.mode.setMode = none then
    match s.mode.transition with
    | none => s.beginScan .active .auto
    | some t => { s with mode := { s.mode with returnDue := s.mode.returnDue || t.target == .idle } }
  else s

/-- Return due is taken at a transition's completion (R139, R143). -/
def State.takeReturn (s : State) : State :=
  State.beginScan { s with mode := { s.mode with returnDue := false } } .active .auto

/-! ## SET_MODE (R147) -/

/-- The command of SET_MODE answered DONE with the mode (R139, R147). -/
def State.answerSetMode (s : State) : State :=
  State.respond { s with mode := { s.mode with setMode := none } } Command.setMode.code .done (putU8 s.mode.mode.code)

/-- SET_MODE's target and delay; none for IDLE and the unassigned codes (11.4, R147). -/
def setModeOf (p : Bytes) : Option SetMode :=
  match u8At p 0 with
  | 1 => some { target := .active, delay := if u8At p 1 = 0 then none else some (u8At p 2), driving := false }
  | 2 => some { target := .doze, delay := none, driving := false }
  | 3 => some { target := .sleep, delay := none, driving := false }
  | _ => none

/-- The Mode Engine at the start of a SET_MODE: return due cleared, the delay taken, the command driving (R147). -/
def ModeEngine.started (m : ModeEngine) (c : SetMode) : ModeEngine :=
  { m with returnDue := false, delay := c.delay.getD m.delay, setMode := some { c with driving := true } }

/-- What a started SET_MODE does, by the settled mode and the target (R147). -/
def State.drive (s : State) (target : Mode) : State :=
  if s.mode.mode = target then s.answerSetMode
  else if s.mode.mode = .sleep then s.beginWake target
  else
    match target with
    | .doze => s.beginDoze
    | .sleep => s.beginSleep
    | .active => s.beginScan .active .command
    | .idle => s.beginScan .idle .command
    | .waking => s

/-- A SET_MODE starts (R147). -/
def State.startSetMode (s : State) : State :=
  match s.mode.setMode with
  | some c => State.drive { s with mode := s.mode.started c } c.target
  | none => s

/-- A SET_MODE drives the transition in flight. -/
def ModeEngine.driven (m : ModeEngine) : Bool :=
  match m.setMode with
  | some c => c.driving
  | none => false

/-- The transition completes: MODE_CHANGED, then the answer, or a waiting SET_MODE (its own step), or the
return (R139). -/
def State.completeTransition (s : State) : State :=
  match s.mode.transition with
  | none => s
  | some t =>
    let u := State.raise { s with mode := { s.mode with transition := none } } (.modeChanged s.mode.mode t.cause)
    if s.mode.driven then u.answerSetMode
    else if u.setModeReady then u
    else if s.mode.returnDue then u.takeReturn
    else u

/-! ## Enable changes (R43 to R47) -/

/-- A surface's disable: its slots are emptied, on the pad R47's release is owed, and a forced end is
requested; on the panel the pen is dropped as well (R44). -/
def State.disable (s : State) (f : Surface) : State :=
  match f with
  | .pad =>
    State.requestForcedEnd
      { s.emptySlots .pad with gesture := { s.gesture with releaseOwed := s.gesture.button != .none } } .pad
  | .panel => ((s.emptySlots .panel).requestForcedEnd .panel).requestDrop

/-- The state with new enables in force. -/
def State.withEnables (s : State) (e : Enables) : State := { s with command := { s.command with enables := e } }

/-- A surface's disable where its enable changed from yes to no. -/
def State.disableWhen (s : State) (f : Surface) (gone : Bool) : State := if gone then s.disable f else s

/-- An evaluation of the enables in force against values read (R43): every change takes its effects. -/
def State.evaluateEnables (s : State) (e : Enables) : State :=
  let was := s.command.enables
  if e = was then s
  else
    (((s.withEnables e).disableWhen .pad (was.pad && !e.pad)).disableWhen .panel (was.panel && !e.panel)).evaluateScans

/-- A read of the current POSTURE row by a reader of R41, with the evaluation R43 asks of it. -/
def State.consultPosture (s : State) : State := s.readPosture.evaluateEnables s.postureRow.enables

end Sys2Proof.Machine
end

