-- ==== Sys2Proof/Machine/Intake.lean ====
section
/-! DEFINITION. A packet's arrival at an intake: framing, sorting, content checks, discards, waiting slots, link
recovery, replies and pass-up (chapter 1, R138, R140, R145, R177). -/

namespace Sys2Proof.Machine

/-- One more link error (R17). -/
def State.linkError (s : State) (l : Surface) : State :=
  s.setLink l { s.link l with errors := sat16 (s.link l).errors }

/-- A waiting slot after a frame reaches it: filled, or its frame replaced and the tally raised (R5). -/
def Slot.put {F : Type} (w : Slot F) (f : F) : Slot F :=
  { frame := some f, tally := if w.frame.isSome then sat8 w.tally else w.tally }

/-- The overrun counter of a stream after a frame reaches its slot (R5, R17). -/
def Slot.overrun {F : Type} (w : Slot F) (n : Nat) : Nat := if w.frame.isSome then sat16 n else n

/-- A sense frame reaches its waiting slot (R5). -/
def State.putSense (s : State) (f : Surface) (fr : SenseFrame) : State :=
  s.setUnit f { s.unit f with slot := (s.unit f).slot.put fr, overruns := (s.unit f).slot.overrun (s.unit f).overruns }

/-- A pen frame reaches its waiting slot (R5). -/
def State.putPen (s : State) (fr : PenFrame) : State :=
  { s with pen := { s.pen with slot := s.pen.slot.put fr, overruns := s.pen.slot.overrun s.pen.overruns } }

/-- R4's conditions that sense and pen frames share. -/
def State.discards (s : State) (l : Surface) : Bool := s.discardingMode || (s.link l).scanChange

/-- A surface's enable in a set of enables. -/
def Enables.of (e : Enables) : Surface → Bool
  | .pad => e.pad
  | .panel => e.panel

/-- A running stall watch restarts with the full stall time (R9). -/
def State.restartWatch (s : State) (l : Surface) : State :=
  s.setLink l { s.link l with watch := (s.link l).watch.map (fun _ => s.stallTime) }

/-- A well-formed sense frame arrives (R4, R5, R9, R11). LINK_BACK comes first; the POSTURE row is read at
every arrival, and R4's other conditions are judged as they stand before the read (log entry 12). -/
def State.senseArrives (s : State) (l : Surface) (fr : SenseFrame) : State :=
  let t := (s.restartWatch l).recover l
  if s.discards l || !t.postureRow.enables.of l then t.consultPosture else t.consultPosture.putSense l fr

/-- A SENSE_FRAME packet's payload (R3). -/
def State.sensePayload (s : State) (l : Surface) (p : Bytes) : State :=
  match parseSense l p with
  | some fr => s.senseArrives l fr
  | none => s.linkError l

/-- A PEN_FRAME packet's payload on a link (R2, R3, R4, R5). -/
def State.penPayload (s : State) (l : Surface) (p : Bytes) : State :=
  match l with
  | .pad => s.linkError .pad
  | .panel =>
    match parsePen p with
    | some fr => if s.discards .panel then s else s.putPen fr
    | none => s.linkError .panel

/-- A SCAN_ACK packet's payload (R138). -/
def State.ackPayload (s : State) (l : Surface) (p : Bytes) : State :=
  if (s.link l).scanChange = true ∧ ackSetting p = some (s.link l).commanded then
    s.setLink l (s.link l).acked
  else s

/-- A WAKE packet (R145). -/
def State.wakeArrives (s : State) (l : Surface) : State :=
  if s.mode.mode = .doze ∧ s.settled = true ∧ s.mode.setMode = none ∧ s.enabled l = true then
    (s.raise (.wake l)).beginScan .active .wake
  else s

/-- A link whose identity query is answered (R8, R140). -/
def Link.replied (l : Link) : Link :=
  { l with query := none, outcome := .replied, state := if l.state = .off then .up else l.state }

/-- An ID_REPLY packet (R2, R8, R140). -/
def State.idReplyArrives (s : State) (l : Surface) : State :=
  if (s.link l).query.isSome then (s.setLink l (s.link l).replied).recover l else s

/-- A packet sorted to pass-up (R12, R177). -/
def State.passUpArrives (s : State) (l : Surface) (kind : BitVec 6) (p : Bytes) : State :=
  if p.length ≤ 253 then s.offerPassUp l kind p else s.raise (.passDrop l .length)

/-- A well-framed packet sorted by its kind (R2). -/
def State.sortPacket (s : State) (l : Surface) (kind : BitVec 6) (p : Bytes) : State :=
  if kind = kindSenseFrame then s.sensePayload l p
  else if kind = kindPenFrame then s.penPayload l p
  else if kind = kindScanAck then s.ackPayload l p
  else if kind = kindWake then s.wakeArrives l
  else if kind = kindIdReply then s.idReplyArrives l
  else s.passUpArrives l kind p

/-- A packet arrives on a link (R1): the link it arrives on identifies its source, its channel is ignored. -/
def State.packetArrives (s : State) (l : Surface) (bs : Bytes) : State :=
  if wellFramed bs then s.sortPacket l (kindOf bs) (payloadOf bs) else s.linkError l

end Sys2Proof.Machine
end

