-- ==== Sys2Proof/Machine/Frames.lean ====
section
/-! DEFINITION. The frame operations: taking a frame, the allocator's answers, and the completions (R21, R25 to R35,
R60, R65). -/

namespace Sys2Proof.Machine

/-! ## Taking a sense frame (R6, R21 to R23, R90, R107) -/

/-- The profile index a POSTURE row names for a surface. -/
def PostureRow.profileIndex (r : PostureRow) : Surface → Nat
  | .pad => r.padProfile
  | .panel => r.panelProfile

/-- The gather window of a surface in ms (R40). -/
def PostureRow.gather (r : PostureRow) : Surface → Nat
  | .pad => r.padGather
  | .panel => r.panelGather

/-- The operation of a taken frame with its snapshot (R21) and the candidates that matching left over. -/
def State.senseOp (s : State) (f : Surface) (fr : SenseFrame) (profile : Profile) (left : List Candidate) : SenseOp :=
  { frame := fr, tally := (s.unit f).slot.tally, posture := s.command.select, gather := s.postureRow.gather f,
    profile := profile, guard := s.pen.guard, typing := s.palm.typing.isSome,
    retroDue := f == .panel && s.pen.guard.activation != s.palm.activation,
    inkDue := f == .panel && s.pen.guard.ink != s.gesture.ink,
    waiting := left, discards := 0 }

/-- The state after the table reads of a take: the current POSTURE row, then the CLASS row it names (R21). -/
def State.afterSnapshot (s : State) (f : Surface) : State :=
  s.readPosture.readActive .cls (s.postureRow.profileIndex f)

/-- The profile of a take (R21, R77). -/
def State.snapshotProfile (s : State) (f : Surface) : Profile :=
  s.readPosture.profile (s.postureRow.profileIndex f)

/-- The state once a frame is taken, before the enables are evaluated: the hold, the snapshot, matching, and on
the panel the two remembered counts (R21, R22, R90, R107). -/
def State.takenSense (s : State) (f : Surface) (fr : SenseFrame) : State :=
  let profile := s.snapshotProfile f
  let m := matchSlots f (profile.matchRadius * profile.matchRadius) s.tracks.slots fr.candidates
  let t := s.afterSnapshot f
  let u : SurfaceUnit :=
    { s.unit f with slot := Slot.empty SenseFrame, lastTime := fr.time, op := some (s.senseOp f fr profile m.2) }
  { (t.setUnit f u).setSlots m.1 with
    store := { t.store with holds := t.store.holds + 1 },
    palm := { s.palm with activation := if f = .panel then s.pen.guard.activation else s.palm.activation },
    gesture := { s.gesture with ink := if f = .panel then s.pen.guard.ink else s.gesture.ink } }

/-- A sense operation takes its waiting frame (R6, R21); the read of the POSTURE row starts R43's evaluation,
which finds the frame in progress. -/
def State.takeSense (s : State) (f : Surface) : State :=
  match (s.unit f).slot.frame with
  | some fr => (s.takenSense f fr).evaluateEnables s.postureRow.enables
  | none => s

/-! ## The allocator's answer (R25 to R27) -/

/-- A refused request (R26). -/
def State.refuseSlot (s : State) (f : Surface) (op : SenseOp) (rest : List Candidate) : State :=
  { s.setUnit f { s.unit f with
      op := some { op with waiting := rest, discards := op.discards + 1 }, discards := sat16 (s.unit f).discards } with
    tracks := { s.tracks with lastServed := f } }

/-- A granted request: the birth of a track in the slot, after the zone lookup it asks (R24, R27, R52, R78). -/
def State.grantSlot (s : State) (f : Surface) (op : SenseOp) (c : Candidate) (rest : List Candidate) (i : Nat) : State :=
  let t := s.afterLookup op.posture
  let zone := s.lookup f c.x c.y op.posture
  let id := freshId s.tracks.slots 21 s.tracks.nextId
  let st := birthState (classify f op zone s.tracks.slots c) op.profile.confirm
  { t.setUnit f { s.unit f with op := some { op with waiting := rest } } with
    tracks := { slots := s.tracks.slots.set i (some (newborn f id c zone st)), nextId := idAfter id, lastServed := f } }

/-- The answer to a surface's waiting request (R25). -/
def State.answerSlot (s : State) (f : Surface) : State :=
  match (s.unit f).op with
  | some op =>
    match op.waiting with
    | c :: rest =>
      match freeSlot s.tracks.slots with
      | some i => s.grantSlot f op c rest i
      | none => s.refuseSlot f op rest
    | [] => s
  | none => s

/-- One answer of the allocator (R25). -/
def State.allocate (s : State) (who : Requesters) : State :=
  match s.served who with
  | some f => s.answerSlot f
  | none => s

/-! ## Completion of a sense frame (R28 to R35) -/

/-- The stream of a surface's sense frames (section 1.2). -/
def senseStream : Surface → FrameStream
  | .pad => .padSense
  | .panel => .panelSense

/-- Stages 4 to 6 over the slots (R28, R29, R30). -/
def stagesFourToSix (f : Surface) (op : SenseOp) (slots : List (Option Track)) : List (Option Track) :=
  onTracks f (Track.ends op.profile) (onTracks f (Track.confirm op.profile) (reclassify f op slots))

/-- Stages 4 to 7, with the records of the gesture step (R20, R98). -/
def State.stagesToSeven (s : State) (f : Surface) (op : SenseOp) : State × List Record :=
  let held := newlyHeld s.tracks.slots (reclassify f op s.tracks.slots)
  (s.setSlots (stagesFourToSix f op s.tracks.slots)).gestureStep f op.frame.time op.gather held op.inkDue

/-- Stage 7's pointer motion on the pad (R98, R110, R111). -/
def State.padMotion (s : State) (op : SenseOp) : PointerRecord × Int × Int :=
  pointerStep s.gesture.pointer s.pad.context s.tracks.slots op.profile.gain

/-- The state stage 8 leaves: on the pad the pointer record, on the panel the last reported positions (R32, R110). -/
def State.stageEight (s : State) (f : Surface) (op : SenseOp) : State :=
  match f with
  | .pad => { s with gesture := { s.gesture with pointer := (s.padMotion op).1 } }
  | .panel => s.setSlots (onTracks .panel Track.reported s.tracks.slots)

/-- The records stage 8 composes (R32, R34). -/
def State.composed (s : State) (f : Surface) (op : SenseOp) : List Record :=
  match f with
  | .pad =>
    let m := (s.padMotion op).2
    if m.1 = 0 ∧ m.2 = 0 then [] else [.pointer m.1 m.2 s.gesture.button.buttons]
  | .panel => contactFrames op.frame.time (entryList s.tracks.slots)

/-- TRACK_EXHAUST, in the first frame of an episode (R26). -/
def State.exhaustEvents (s : State) (f : Surface) (op : SenseOp) : List Event :=
  if 0 < op.discards ∧ (s.unit f).exhausted = false then [.trackExhaust f op.discards] else []

/-- FRAME_OVERRUN of a stream (R6). -/
def overrunEvents (stream : FrameStream) (tally : Nat) : List Event :=
  if tally = 0 then [] else [.frameOverrun stream tally]

/-- The offer group of a sense frame's completion (R35). -/
def State.completionGroup (s : State) (f : Surface) (op : SenseOp) (gestures : List Record) : List Offer :=
  (s.composed f op ++ gestures).map (.data (surfaceStream f))
    ++ (s.exhaustEvents f op ++ overrunEvents (senseStream f) op.tally).map .event

/-- The release of a sense frame: the hold, the ended slots, the frame marks, the operation, on the pad the
click view (R26, R31, R53). -/
def State.releaseSense (s : State) (f : Surface) (op : SenseOp) : State :=
  let slots := releaseSlots f s.tracks.slots
  { (s.setUnit f { s.unit f with op := none, exhausted := decide (0 < op.discards) }).setSlots slots with
    store := { s.store with holds := s.store.holds - 1 },
    gesture := { s.gesture with clickView := match f with
      | .pad => clickPositions slots
      | .panel => s.gesture.clickView } }

/-- The report of a completed sense frame to the Mode Engine: whether it held a candidate (R35, R143). -/
def State.reportSense (s : State) (op : SenseOp) : State :=
  if op.frame.candidates.isEmpty then s else s.reportReturn

/-- The completion of a sense frame: stages 4 to 9 and the report (R35). It comes once the allocator has
answered every request of the frame. -/
def State.completeSense (s : State) (f : Surface) : State :=
  match (s.unit f).op with
  | some op =>
    if op.waiting.isEmpty then
      let r := s.stagesToSeven f op
      let t := (r.1.stageEight f op).offer (r.1.completionGroup f op r.2)
      (t.releaseSense f op).reportSense op
    else s
  | none => s

/-! ## Pen frames (R60, R65) -/

/-- The state once a pen frame is taken (R60). -/
def State.takenPen (s : State) (fr : PenFrame) : State :=
  { s.readPosture with
    pen := { s.pen with
      slot := Slot.empty PenFrame,
      op := some { frame := fr, tally := s.pen.slot.tally, enabled := s.postureRow.enables.pen } },
    store := { s.readPosture.store with holds := s.readPosture.store.holds + 1 } }

/-- The pen operation takes its waiting frame (R6, R60), with R43's evaluation. -/
def State.takePen (s : State) : State :=
  match s.pen.slot.frame with
  | some fr => (s.takenPen fr).evaluateEnables s.postureRow.enables
  | none => s

/-- The release of a pen frame (R65). -/
def State.releasePen (s : State) : State :=
  { s with pen := { s.pen with op := none }, store := { s.store with holds := s.store.holds - 1 } }

/-- The report of an evaluated pen frame to the Mode Engine (R65, R143). -/
def State.reportPen (s : State) (op : PenOp) : State :=
  if op.enabled = true ∧ op.frame.inRange = true then s.reportReturn else s

/-- The completion of a pen frame (R65). -/
def State.completePen (s : State) : State :=
  match s.pen.op with
  | some op =>
    let t := s.penEvaluate op
    let group := s.penGroup t op ++ (overrunEvents .pen op.tally).map .event
    ((t.offer group).reportPen op).releasePen
  | none => s

end Sys2Proof.Machine
end

