-- ==== Sys2Proof/Machine/Tables.lean ====
section
/-! DEFINITION. The Table Store's commands and events: loads, commits and their swap, copies, reverts, row reads,
verify passes and the zone lock (chapter 7). -/

namespace Sys2Proof.Machine

/-- What a command's tests find: a refusal with its result bytes, or leave to go on. -/
abbrev Refused := Option (Status × Bytes)

/-! ## Loads (R119 to R122) -/

/-- A row of a run is locked (R134). -/
def TableStore.runLocked (st : TableStore) (t : Table) (first count : Nat) : Bool :=
  (List.range count).any (fun i => st.locked t (first + i))

/-- The tests of LOAD_BEGIN in their order (R119); a count of 0 is OPEN (11.4). -/
def TableStore.loadBeginRefused (st : TableStore) (code first count : Nat) : Refused :=
  match tableOfCode code with
  | none => some (.badArg, [])
  | some t =>
    if st.load.isSome then some (.badState, [])
    else if st.copying t then some (.tableBusy, [])
    else if st.runLocked t first (max 1 count) then some (.protectedZone, [])
    else if tableRows t ≤ first ∨ tableRows t < first + count then some (.badArg, [])
    else none

/-- An accepted LOAD_BEGIN (R119). -/
def TableStore.openLoad (st : TableStore) (t : Table) (first count : Nat) : TableStore :=
  { st.setStatus t .loading with
    load := some { table := t, first := first, count := if count = 0 then none else some count, cursor := first,
                   written := 0, crc := crc32Init, timer := some 100 } }

/-- The bytes of a payload cut into rows of a size; the fuel is the number of rows. -/
def cutRows (size : Nat) : Nat → Bytes → List Bytes
  | 0, _ => []
  | n + 1, bs => bs.take size :: cutRows size n (bs.drop size)

/-- The tests of LOAD_ROWS on an open load, in their order (R120). -/
def TableStore.loadRowsRefused (st : TableStore) (ld : OpenLoad) (p : Bytes) : Refused :=
  let n := p.length / rowSize ld.table
  if p.length = 0 ∨ p.length % rowSize ld.table ≠ 0 then some (.badArg, [])
  else if (match ld.count with
      | some k => decide (k < ld.written + n)
      | none => decide (tableRows ld.table < ld.cursor + n)) then some (.badArg, [])
  else if st.runLocked ld.table ld.cursor n then
    some (.protectedZone, putU8 ld.cursor ++ putU8 ld.written)
  else none

/-- Rows written in order into a bank, with clear marks (R120). -/
def TableStore.writeRows (t : Table) (k : Bank) : Nat → List Bytes → TableStore → TableStore
  | _, [], st => st
  | n, r :: rs, st => TableStore.writeRows t k (n + 1) rs (st.writeRow t k n (StoredRow.fresh r))

/-- A load closed, with the status its table takes (R120 to R122). -/
def TableStore.closeLoad (st : TableStore) (t : Table) (v : Staging) : TableStore :=
  { st.setStatus t v with load := none }

/-- An accepted LOAD_ROWS (R120). -/
def TableStore.takeRows (st : TableStore) (ld : OpenLoad) (p : Bytes) : TableStore :=
  let n := p.length / rowSize ld.table
  { TableStore.writeRows ld.table (st.staging ld.table) ld.cursor (cutRows (rowSize ld.table) n p) st with
    load := some { ld with cursor := ld.cursor + n, written := ld.written + n, crc := crc32Fold ld.crc p,
                           timer := some 100 } }

/-- The outcome of LOAD_END on an open load (R121). -/
def OpenLoad.outcome (ld : OpenLoad) (host : Word) : Status :=
  if (match ld.count with
      | some k => decide (ld.written < k)
      | none => false) then .short
  else if host ≠ crc32Final ld.crc then .crcFail
  else .done

/-- LOAD_BEGIN (R119). -/
def State.runLoadBegin (s : State) (p : Bytes) : State :=
  match s.store.loadBeginRefused (u8At p 0) (u8At p 1) (u8At p 2), tableOfCode (u8At p 0) with
  | none, some t =>
    State.respond { s with store := s.store.openLoad t (u8At p 1) (u8At p 2) } Command.loadBegin.code .done (p.take 3)
  | some (v, r), _ => s.respond Command.loadBegin.code v r
  | none, none => s.respond Command.loadBegin.code .badArg []

/-- LOAD_ROWS (R120). -/
def State.runLoadRows (s : State) (p : Bytes) : State :=
  match s.store.load with
  | none => s.respond Command.loadRows.code .badState []
  | some ld =>
    match s.store.loadRowsRefused ld p with
    | some (v, r) =>
      State.respond { s with store := s.store.closeLoad ld.table .broken } Command.loadRows.code v r
    | none =>
      let n := p.length / rowSize ld.table
      State.respond { s with store := s.store.takeRows ld p } Command.loadRows.code .done
        (putU8 (ld.cursor + n) ++ putU8 (ld.written + n))

/-- LOAD_END (R121). -/
def State.runLoadEnd (s : State) (p : Bytes) : State :=
  match s.store.load with
  | none => s.respond Command.loadEnd.code .badState []
  | some ld =>
    let v := ld.outcome (BitVec.ofNat 32 (u32At p 0))
    State.respond { s with store := s.store.closeLoad ld.table (if v = .done then .edited else .broken) }
      Command.loadEnd.code v (putU8 ld.written ++ putU32 (crc32Final ld.crc).toNat)

/-- LOAD_ABORT (R122). -/
def State.runLoadAbort (s : State) : State :=
  match s.store.load with
  | none => s.respond Command.loadAbort.code .badState []
  | some ld =>
    State.respond { s with store := s.store.closeLoad ld.table .broken } Command.loadAbort.code .aborted
      (putU8 ld.written)

/-- The load step timeout (R122). -/
def State.loadTimeout (s : State) : State :=
  match s.store.load with
  | none => s
  | some ld =>
    State.raise { s with store := s.store.closeLoad ld.table .broken } (.loadTimeout ld.table ld.cursor ld.written)

/-! ## Commit and swap (R124 to R126) -/

/-- The first table of a set whose status is one of a list, in table order (R124, R128). -/
def TableStore.firstWith (st : TableStore) (vs : List Staging) (ts : TableSet) : Option Table :=
  ts.find? (fun t => vs.contains (st.status t))

/-- COMMIT (R124). -/
def State.runCommit (s : State) (p : Bytes) : State :=
  let ts := tableSetOf (u8At p 0)
  let edited := ts.filter (fun t => s.store.status t == .edited)
  if badSet (u8At p 0) then s.respond Command.commit.code .badArg []
  else
    match s.store.firstWith [.loading, .broken, .copying] ts with
    | some t => s.respond Command.commit.code .badState (putU8 (tableCode t))
    | none =>
      if edited.isEmpty then s.respond Command.commit.code .done (tableSetByte [])
      else { s with store := { s.store with commit := some edited } }

/-- One bank select flipped and its table COPYING (R126). -/
def TableStore.flip (st : TableStore) (t : Table) : TableStore :=
  st.setTable t { st.table t with select := (st.table t).select.other, status := .copying }

/-- The bank selects of a set flipped (R126). -/
def TableStore.flipAll : TableSet → TableStore → TableStore
  | [], st => st
  | t :: ts, st => TableStore.flipAll ts (st.flip t)

/-- The users of one swapped table are told (R126). -/
def State.tellUsers (s : State) (t : Table) : State :=
  match t with
  | .posture => s.consultPosture
  | .zone => s
  | .cls => s
  | .gesture => (s.recheckGesture .pad).recheckGesture .panel
  | .pen => { s with pen := { s.pen with refreshDue := true } }

/-- The users of the swapped tables are told, table by table (R126). -/
def State.tellAll : TableSet → State → State
  | [], s => s
  | t :: ts, s => State.tellAll ts (s.tellUsers t)

/-- The swap of the pending commit (R126). -/
def State.takeSwap (s : State) : State :=
  match s.store.commit with
  | some ts =>
    State.tellAll ts
      (State.respond { s with store := { TableStore.flipAll ts s.store with commit := none } }
        Command.commit.code .done (tableSetByte ts))
  | none => s

/-! ## Copies and REVERT (R127, R128, R132) -/

/-- The row a copy writes for a source row as read: its bytes with a clear mark, or the inert row bytes with
the mark set (R132). -/
def RowView.copied (t : Table) (v : RowView) : StoredRow :=
  { bytes := v.used t, inert := v.inert, integrity := .intact }

/-- One row copied from the active to the staging bank (R127); its read has R131's effects. -/
def State.copyRow (s : State) (t : Table) (n : Nat) : State :=
  let u := s.readActive t n
  { u with store :=
      u.store.writeRow t (s.store.staging t) n ((s.viewRow t (s.store.active t) n).copied t) }

/-- The rows of a list copied in order (R127). -/
def State.copyRows (t : Table) : List Nat → State → State
  | [], s => s
  | n :: ns, s => State.copyRows t ns (s.copyRow t n)

/-- The rows a copy visits: all but the locked ZONE rows, in ascending order (R127). -/
def TableStore.copiedRows (st : TableStore) (t : Table) : List Nat :=
  (List.range (tableRows t)).filter (fun n => !st.locked t n)

/-- A REVERT is answered once no table of its set is COPYING (R128). -/
def State.answerRevert (s : State) : State :=
  match s.command.revert with
  | some ts =>
    if ts.any s.store.copying then s
    else
      State.respond { s with command := { s.command with revert := none } } Command.revert.code .done
        (tableSetByte ts)
  | none => s

/-- The end of a table's copy (R127, R128; log entry 15). -/
def State.endCopy (s : State) (t : Table) : State :=
  if s.store.copying t then
    let u := State.copyRows t (s.store.copiedRows t) s
    State.answerRevert { u with store := u.store.setStatus t .clean }
  else s

/-- REVERT (R128). -/
def State.runRevert (s : State) (p : Bytes) : State :=
  let ts := tableSetOf (u8At p 0)
  if badSet (u8At p 0) then s.respond Command.revert.code .badArg []
  else
    match s.store.firstWith [.loading, .copying] ts with
    | some t => s.respond Command.revert.code .badState (putU8 (tableCode t))
    | none =>
      { s with store := TableStore.setStatuses .copying ts s.store, command := { s.command with revert := some ts } }

/-! ## Reading back (R129) -/

/-- The most rows a READ_ROWS may name: those that fit 192 row bytes (R129). -/
def readLimit (t : Table) : Nat := 192 / rowSize t

/-- The bank a READ_ROWS names, resolved at its taking (R129). -/
def TableStore.namedBank (st : TableStore) (t : Table) : Nat → Option Bank
  | 0 => some (st.active t)
  | 1 => some (st.staging t)
  | _ => none

/-- The condition code (11.4). -/
def Condition.code : Condition → Nat
  | .good => 0
  | .corrected => 1
  | .faulted => 2
  | .inert => 3

/-- The result of a READ_ROWS (11.4). -/
def readResult (t : Table) (k : Bank) (first count : Nat) (vs : List RowView) : Bytes :=
  putU8 (tableCode t) ++ putU8 k.code ++ putU8 first ++ putU8 count
    ++ (vs.map (fun v => putU8 v.condition.code)).flatten ++ (vs.map RowView.bytes).flatten

/-- READ_ROWS (R129). -/
def State.runReadRows (s : State) (p : Bytes) : State :=
  let first := u8At p 2
  let count := u8At p 3
  match tableOfCode (u8At p 0) with
  | none => s.respond Command.readRows.code .badArg []
  | some t =>
    match s.store.namedBank t (u8At p 1) with
    | none => s.respond Command.readRows.code .badArg []
    | some k =>
      if count = 0 ∨ readLimit t < count ∨ tableRows t < first + count then
        s.respond Command.readRows.code .badArg []
      else if u8At p 1 = 1 ∧ s.store.copying t = true then s.respond Command.readRows.code .tableBusy []
      else
        let ns := (List.range count).map (fun i => first + i)
        (s.afterReads t k ns).respond Command.readRows.code .done
          (readResult t k first count (s.viewRows t k ns))

/-! ## Verify passes (R130) -/

/-- The banks and tables a pass reads, in order (R130). -/
def TableStore.passBanks (st : TableStore) : VerifyPass → List (Table × Bank)
  | .command ts => (ts.map (fun t => [(t, Bank.a), (t, Bank.b)])).flatten
  | .wake => allTables.map (fun t => (t, st.active t))

/-- The state after a pass over banks, every row read in ascending order (R130). -/
def State.afterPass : List (Table × Bank) → State → State
  | [], s => s
  | (t, k) :: rest, s => State.afterPass rest (s.afterReads t k (List.range (tableRows t)))

/-- The rows of a bank whose check finds a given result. -/
def TableStore.countRows (st : TableStore) (v : Integrity) (t : Table) (k : Bank) : Nat :=
  ((List.range (tableRows t)).filter (fun n => (st.row t k n).integrity == v)).length

/-- The rows of a pass whose check finds a given result: a pass's corrections and its count (R130). -/
def TableStore.countPass (st : TableStore) (v : Integrity) (banks : List (Table × Bank)) : Nat :=
  (banks.map (fun p => st.countRows v p.1 p.2)).foldl (· + ·) 0

/-- The end of a verify pass (R130; log entry 14). -/
def State.endVerify (s : State) : State :=
  match s.store.verify with
  | none => s
  | some v =>
    let banks := s.store.passBanks v
    let bad := s.store.countPass .uncorrectable banks
    let u := State.afterPass banks s
    let u : State := { u with store := { u.store with verify := none } }
    match v with
    | .command _ =>
      u.respond Command.verify.code .done (putU16 bad ++ putU16 (s.store.countPass .singleBit banks))
    | .wake => { u with mode := { u.mode with wakeCount := some bad } }

/-- VERIFY (R130). -/
def State.runVerify (s : State) (p : Bytes) : State :=
  let ts := tableSetOf (u8At p 0)
  if badSet (u8At p 0) then s.respond Command.verify.code .badArg []
  else if ts.any s.store.copying then s.respond Command.verify.code .tableBusy []
  else { s with store := { s.store with verify := some (.command ts) } }

/-! ## The zone lock (R134) -/

/-- LOCK_ZONES (R134). -/
def State.runLockZones (s : State) (p : Bytes) : State :=
  let k := u8At p 0
  if !([1, 2, 4, 8, 16, 24] : List Nat).contains k then s.respond Command.lockZones.code .badArg []
  else if s.store.status .zone ≠ .clean then s.respond Command.lockZones.code .badState []
  else if k < s.store.lock then s.respond Command.lockZones.code .protectedZone []
  else State.respond { s with store := { s.store with lock := k } } Command.lockZones.code .done (putU8 k)

end Sys2Proof.Machine
end

