-- ==== Sys2Proof/Machine/Commands.lean ====
section
/-! DEFINITION. The command slot (R169), the Command Unit's own commands (R42, R147, R171 to R175) and the host link
port (R164 to R168). -/

namespace Sys2Proof.Machine

/-! ## The command slot (R169) -/

/-- A command other than SOFT_RESET finds the slot BUSY: a command is in progress, or a SOFT_RESET has been
taken and is not yet in effect (R169, R172). -/
def State.slotBusy (s : State) : Bool := s.command.softReset || s.command.slot.isSome

/-- The slot BUSY with a command. -/
def State.occupy (s : State) (kind : BitVec 6) : State :=
  { s with command := { s.command with slot := some kind } }

/-- A management command in a FREE slot (R169): BAD_ARG by its length, or run by its own rule. -/
def State.takeFree (s : State) (c : Command) (p : Bytes) (run : State → State) : State :=
  if c.lengthOk p then run (s.occupy c.code) else (s.occupy c.code).respond c.code .badArg []

/-- A management command taken (R169): BUSY in a BUSY slot, or as in a FREE one. A pending commit does not hold back the
effect of a SET_POSTURE (R48); the slot, which its COMMIT keeps, does (R123, R124; log entry 33). -/
def State.takeControl (s : State) (c : Command) (p : Bytes) (run : State → State) : State :=
  if s.slotBusy then { s with queue := s.queue.offerBusy c.code } else s.takeFree c p run

/-- A CONTROL packet whose kind names no management command (R169). -/
def State.takeUnknown (s : State) (kind : BitVec 6) : State :=
  if s.slotBusy then { s with queue := s.queue.offerBusy kind }
  else (s.occupy kind).respond kind .unknown []

/-- SOFT_RESET is taken whatever the slot holds; a second one joins the first (R172). -/
def State.takeSoftReset (s : State) : State := { s with command := { s.command with softReset := true } }

/-! ## IDENTIFY (R171) -/

/-- The result of IDENTIFY: vendor, part, revision, capacities, rows, page, row sizes, capacities (R171, 11.4). -/
def identity : Bytes :=
  putU16 0x2D71 ++ putU16 3620 ++ [Config.revision] ++ putU8 20 ++ putU8 16 ++ putU8 5
    ++ (allTables.map (fun t => putU8 (tableRows t))).flatten ++ putU8 24
    ++ (allTables.map (fun t => putU8 (rowSize t))).flatten
    ++ putU8 8 ++ putU8 48 ++ putU8 40 ++ putU8 32 ++ putU8 2

/-- IDENTIFY (R171). -/
def State.runIdentify (s : State) : State := s.respond Command.identify.code .done identity

/-! ## GET_STATUS (R173, 11.4) -/

/-- The enables byte (11.4). -/
def Enables.byte (e : Enables) : Bytes := putFlags [e.pad, e.panel, e.pen]

/-- Link state code (11.4). -/
def LinkState.code : LinkState → Nat
  | .off => 0
  | .up => 1
  | .stalled => 2

/-- Setting code, 7 for UNKNOWN (11.4). -/
def Setting.code : Setting → Nat
  | .off => 0
  | .full => 1
  | .reduced => 2
  | .wakeOnTouch => 3
  | .unknown => 7

/-- A link's byte (11.4). -/
def Link.byte (l : Link) : Bytes := putU8 (l.state.code + 4 * l.commanded.code + 32 * l.scanChange.toNat)

/-- Context state code (11.4). -/
def ContextState.code : ContextState → Nat
  | .closed => 0
  | .gathering => 1
  | .candidate => 2
  | .active => 3
  | .passive => 4
  | .finishing => 5

/-- A context's byte (11.4). -/
def Context.byte (c : Context) : Bytes := putU8 (c.state.code + 16 * c.members.length)

/-- Button code (11.4). -/
def Button.code : Button → Nat
  | .none => 0
  | .left => 1
  | .right => 2

/-- Staging status code (11.4). -/
def Staging.code : Staging → Nat
  | .clean => 0
  | .loading => 1
  | .edited => 2
  | .broken => 3
  | .copying => 4

/-- The profile source byte (11.4). -/
def PenUnit.sourceByte (p : PenUnit) : Bytes :=
  match p.followed with
  | some w => putU8 (match w.source with | .row n => n | .fallback => 8)
  | none => putU8 0xFF

/-- The phase bit of a transition (11.4). -/
def TransitionPhase.code : TransitionPhase → Nat
  | .wake => 0
  | .scan => 1

/-- The transition byte; with no transition its phase and cause bits are a free value (log entry 7). -/
def State.transitionByte (s : State) : Bytes :=
  putU8 ((match s.mode.transition with
    | some t => t.target.code + 8 * t.phase.code + 16 * t.cause.code
    | none => 7 + 8 * (Config.freeTransitionBits s.freeCount).toNat) + 128 * s.mode.dwell.isSome.toNat)

/-- The five load bytes; with no load all but the first are a free value (log entry 7). -/
def State.loadBytes (s : State) : Bytes :=
  match s.store.load with
  | some ld =>
    putU8 (tableCode ld.table) ++ putU8 ld.first ++ putU8 (ld.count.getD 0) ++ putU8 ld.cursor ++ putU8 ld.written
  | none => putU8 0xFF ++ putU32 (Config.freeLoadBytes s.freeCount).toNat

/-- A table's byte (11.4). -/
def TableState.byte (t : TableState) : Bytes := putU8 (t.select.code + 2 * t.status.code)

/-- A fault list entry's bytes (11.4). -/
def FaultEntry.bytes (e : FaultEntry) : Bytes := putU8 (tableCode e.table) ++ putU8 e.bank.code ++ putU8 e.row

/-- The 24 bytes of the fault list entries, unused ones 0xFF (11.4). -/
def faultBytes (es : List FaultEntry) : Bytes :=
  ((es.map FaultEntry.bytes).flatten ++ List.replicate 24 0xFF#8).take 24

/-- A stream's resync bytes (11.4). -/
def resyncBytes (r : Option Nat) : Bytes := putU8 r.isSome.toNat ++ putU16 (r.getD 0)

/-- Both masks as sent (11.4). -/
def ReportQueue.maskBytes (q : ReportQueue) : Bytes := putU16 q.reportMask.toNat ++ putU32 q.attentionMask.toNat

/-- The guard's bytes, offsets 19 to 29 (11.4). -/
def PenGuard.bytes (g : PenGuard) : Bytes :=
  putU8 g.active.toNat ++ putU16 g.xMin ++ putU16 g.xMax ++ putU16 g.yMin ++ putU16 g.yMax
    ++ putU8 g.activation ++ putU8 g.ink

/-- The ten counters, offsets 82 to 101 (11.4). -/
def State.counterBytes (s : State) : Bytes :=
  (([s.padLink.errors, s.panelLink.errors, s.pad.overruns, s.panel.overruns, s.pen.overruns, s.pad.discards,
     s.panel.discards, s.store.corrected, s.queue.lost, s.port.errors] : List Nat).map putU16).flatten

/-- The GET_STATUS result, group by group in the order of its layout (R173, 11.4). -/
def State.status (s : State) : Bytes :=
  putU8 s.mode.mode.code ++ s.transitionByte ++ putU8 s.mode.delay ++ putU8 s.mode.toggle.toNat
    ++ putU8 s.command.select ++ s.command.enables.byte
    ++ s.padLink.byte ++ s.panelLink.byte
    ++ putU8 (liveCount .pad s.tracks.slots) ++ putU8 (liveCount .panel s.tracks.slots)
    ++ s.pad.context.byte ++ s.panel.context.byte ++ putU8 s.gesture.button.code
    ++ putU8 s.pen.state.code ++ putU32 s.pen.serial.toNat ++ s.pen.sourceByte ++ s.pen.guard.bytes
    ++ (allTables.map (fun t => (s.store.table t).byte)).flatten
    ++ s.loadBytes ++ putU8 s.store.lock
    ++ putU8 (s.store.faults.length + 128 * s.store.overflow.toNat) ++ faultBytes s.store.faults
    ++ putU8 s.queue.records.length ++ s.queue.maskBytes
    ++ resyncBytes s.queue.resyncPad ++ resyncBytes s.queue.resyncPanel ++ resyncBytes s.queue.resyncPen
    ++ s.counterBytes

/-- GET_STATUS (R173); the next GET_STATUS has a free value of its own (log entry 7). -/
def State.runGetStatus (s : State) : State :=
  State.respond { s with freeCount := s.freeCount + 1 } Command.getStatus.code .done s.status

/-! ## The remaining commands -/

/-- SET_MODE at its taking: BAD_ARG, or in progress and waiting for its start (R147). -/
def State.runSetMode (s : State) (p : Bytes) : State :=
  match setModeOf p with
  | some c => { s with mode := { s.mode with setMode := some c } }
  | none => s.respond Command.setMode.code .badArg []

/-- SET_POSTURE (R42). -/
def State.runSetPosture (s : State) (p : Bytes) : State :=
  if 4 ≤ u8At p 0 then s.respond Command.setPosture.code .badArg []
  else
    let t := State.consultPosture { s with command := { s.command with select := u8At p 0 } }
    t.respond Command.setPosture.code .done (putU8 t.command.select ++ t.command.enables.byte)

/-- The queue with both masks of a SET_NOTICES payload, the line re-evaluated (R152, R153, R174). -/
def ReportQueue.withMasks (q : ReportQueue) (p : Bytes) : ReportQueue :=
  { q with reportMask := BitVec.ofNat 14 (u16At p 0), attentionMask := BitVec.ofNat 18 (u32At p 2) }.evaluate

/-- SET_NOTICES (R174). -/
def State.runSetNotices (s : State) (p : Bytes) : State :=
  State.respond { s with queue := s.queue.withMasks p } Command.setNotices.code .done (s.queue.withMasks p).maskBytes

/-- Every counter of GET_STATUS's counters group 0, the overflow flag clear (R175). -/
def State.clearCounters (s : State) : State :=
  { s with
    padLink := { s.padLink with errors := 0 },
    panelLink := { s.panelLink with errors := 0 },
    pad := { s.pad with overruns := 0, discards := 0 },
    panel := { s.panel with overruns := 0, discards := 0 },
    pen := { s.pen with overruns := 0 },
    store := { s.store with corrected := 0, overflow := false },
    queue := { s.queue with lost := 0 },
    port := { s.port with errors := 0 } }

/-- CLEAR_COUNTERS (R175). -/
def State.runClearCounters (s : State) : State := s.clearCounters.respond Command.clearCounters.code .done []

/-! ## A taken packet's consumer (R166, R169) -/

/-- What a management command does by its own rule, the slot being BUSY with it (section 10.4). SOFT_RESET is not run
through the slot (R172). -/
def Command.run (c : Command) (p : Bytes) (s : State) : State :=
  match c with
  | .identify => s.runIdentify
  | .getStatus => s.runGetStatus
  | .setMode => s.runSetMode p
  | .setPosture => s.runSetPosture p
  | .setNotices => s.runSetNotices p
  | .loadBegin => s.runLoadBegin p
  | .loadRows => s.runLoadRows p
  | .loadEnd => s.runLoadEnd p
  | .loadAbort => s.runLoadAbort
  | .commit => s.runCommit p
  | .revert => s.runRevert p
  | .readRows => s.runReadRows p
  | .verify => s.runVerify p
  | .lockZones => s.runLockZones p
  | .clearCounters => s.runClearCounters
  | .softReset => s

/-- A CONTROL packet reaches the Command Unit, which goes by its kind (R166, R169). -/
def State.takeControlPacket (s : State) (kind : BitVec 6) (p : Bytes) : State :=
  match commandOf kind with
  | some .softReset => s.takeSoftReset
  | some c => s.takeControl c p (c.run p)
  | none => s.takeUnknown kind

/-- A host link fault: counted, and LINK_ERROR raised (R164 to R166). -/
def State.hostFault (s : State) (reason : LinkErrorReason) : State :=
  State.raise { s with port := { s.port with errors := sat16 s.port.errors } } (.linkError reason)

/-- A taken packet goes to its consumer by the channel in its header, before its kind is looked at (R166). -/
def State.takePacket (s : State) (channel : BitVec 2) (kind : BitVec 6) (p : Bytes) : State :=
  if channel = controlChannel then s.takeControlPacket kind p
  else if channel = linkChannel .pad then s.passDown .pad { kind := kind, payload := p }
  else if channel = linkChannel .panel then s.passDown .panel { kind := kind, payload := p }
  else s.hostFault .channel

/-! ## The host link port (R161, R164 to R168) -/

/-- The form that a transfer byte chooses: WRITE, READ with the head record or EMPTY fixed, or IGNORING (R164, R167). -/
def State.choose (s : State) (first : Byte) : Transfer :=
  if first = writeCode then .write []
  else if first = readCode then .read s.queue.records.head? true 0
  else .ignoring

/-- The state with the port's transfer state replaced. -/
def State.setTransfer (s : State) (t : Transfer) : State := { s with port := { s.port with transfer := t } }

/-- Whole bytes received after the transfer byte: a write collects them, every other form ignores them (R164, R167). -/
def Transfer.collect (bs : Bytes) : Transfer → Transfer
  | .write got => .write (got ++ bs)
  | t => t

/-- Bytes clocked out whole in a read (R167). -/
def Transfer.clockOut (n : Nat) : Transfer → Transfer
  | .read record standing out => .read record standing (out + n)
  | t => t

/-- The byte that the port drives on MISO next: the packet's bytes in order in a read, and fill after its CRC, in every
other form and during the transfer byte (R164, R167). -/
def HostPort.miso (p : HostPort) : Byte :=
  match p.transfer with
  | .read record _ out => (readPacket record).getD out fillByte
  | _ => fillByte

/-- The record of a read transfer is removed: it still stands at the head and was clocked out whole (R161, R168). -/
def removes (record : Option Record) (standing : Bool) (out : Nat) : Bool :=
  record.isSome && standing && decide ((readPacket record).length ≤ out)

/-- The CS_N rise that ends a write: its bytes are judged, and a good packet is taken (R165, R166). -/
def State.endWrite (s : State) (bs : Bytes) : State :=
  match judgeWrite bs with
  | .short => s.hostFault (.short bs.length)
  | .crc => s.hostFault .crc
  | .taken channel kind p => s.takePacket channel kind p

/-- CS_N rises: the port returns to NONE, and the transfer has its effect by its form (R161, R164, R165). -/
def State.rise (s : State) : State :=
  match s.port.transfer with
  | .none => s
  | .write bs => (s.setTransfer .none).endWrite bs
  | .read record standing out =>
    { s.setTransfer .none with queue := if removes record standing out then s.queue.remove else s.queue }
  | .ignoring => (s.setTransfer .none).hostFault .badFirst

/-- A whole transfer from NONE to its CS_N rise: its transfer byte and the bytes received after it. -/
def State.transfer (s : State) (first : Byte) (bs : Bytes) : State :=
  (s.setTransfer ((s.choose first).collect bs)).rise

/-- The start of a read: in NONE the READ code is received (R164, R167). -/
def State.takeRead (s : State) : State :=
  match s.port.transfer with
  | .none => s.setTransfer (s.choose readCode)
  | _ => s

/-- The end of a read: `clocked` further packet bytes were clocked out whole, and CS_N rises (R161). -/
def State.endRead (s : State) (clocked : Nat) : State :=
  match s.port.transfer with
  | .read record standing out => (s.setTransfer ((Transfer.read record standing out).clockOut clocked)).rise
  | _ => s

/-- The end of a transfer of another transfer byte, begun here or found IGNORING (R164); a WRITE or READ code spells no
such transfer (log entry 20). -/
def State.endIgnored (s : State) (first : Byte) : State :=
  match s.port.transfer, s.choose first with
  | .none, .ignoring => s.transfer first []
  | .ignoring, .ignoring => s.rise
  | _, _ => s

/-- The end of a write whose collected bytes are `bs`, begun here or found in WRITE with some of them (R165); in any other
state of the port no write can end (log entry 21). -/
def State.endCollected (s : State) (bs : Bytes) : State :=
  match s.port.transfer with
  | .none => s.transfer writeCode bs
  | .write got => if got.isPrefixOf bs then (s.setTransfer (.write bs)).rise else s
  | _ => s

/-- The end of a write whose packet is good, begun here or found in WRITE with some of the packet's bytes, or with all
of them and fill: the packet is taken (R165, R166; log entry 21). -/
def State.endPacket (s : State) (channel : BitVec 2) (kind : BitVec 6) (p : Bytes) : State :=
  match s.port.transfer with
  | .none => s.takePacket channel kind p
  | .write got =>
    if got.isPrefixOf (packetBytes channel kind p) || (packetBytes channel kind p).isPrefixOf got then
      (s.setTransfer .none).takePacket channel kind p
    else s
  | _ => s

/-! ## A waiting response (R160) -/

/-- A response waits and finds room: it enters, but for an event that reaches the place together with it (R160). -/
def State.entryDue (s : State) : Bool := s.queue.waiting.isSome && decide (s.queue.records.length < 48)

/-- A waiting response enters, which frees the command slot (R160, R170). -/
def State.enterWaiting (s : State) : State :=
  match s.queue.waiting with
  | some r =>
    if s.queue.records.length < 48 then
      { s with queue := { s.queue with waiting := none }.enter (.response r),
               command := { s.command with slot := none } }
    else s
  | none => s

end Sys2Proof.Machine
end

