-- ==== Sys2Proof/Machine/Resets.lean ====
section
/-! DEFINITION. The three resets (R18, R39, R73, R94, R115, R136, R148 to R150, R163, R168, R172). -/

namespace Sys2Proof.Machine

/-- Every block at its reset values but for the Table Store and the diag toggle; the model's own fields stay. -/
def State.resetKeeping (s : State) (store : TableStore) (toggle : Bool) : State :=
  { State.reset with
    store := store, mode := { ModeEngine.reset with toggle := toggle }, freeCount := s.freeCount, pending := s.pending }

/-- The enables in force set from the current POSTURE row at the end of a reset, without the effects of R44 to
R47 (R43). -/
def State.enablesFromRow (s : State) : State :=
  { s.readPosture with command := { s.command with enables := s.postureRow.enables } }

/-! ## RESET_N and power-on (R136, R148) -/

/-- The rows of a ZONE bank after RESET_N: the locked ones as they were, the others at their defaults (R136). -/
def TableStore.keepLocked (st : TableStore) (k : Bank) : List StoredRow :=
  (List.range 96).map (fun n =>
    if st.locked .zone n then st.row .zone k n else StoredRow.fresh (defaultRow .zone))

/-- The Table Store after RESET_N (R136). -/
def TableStore.afterResetN (st : TableStore) : TableStore :=
  { TableStore.reset with
    zone := { TableState.reset .zone with bankA := st.keepLocked .a, bankB := st.keepLocked .b },
    lock := st.lock }

/-- RESET_N is accepted: every block holds its reset values (R148). -/
def State.assertReset (s : State) : State :=
  { s.resetKeeping s.store.afterResetN false with inReset := true }

/-- RESET_N rises: the part leaves reset (R148), the enables in force are set (R43). -/
def State.releaseReset (s : State) : State :=
  if s.inReset then { s.enablesFromRow with inReset := false } else s

/-- Power-on reset (R148). -/
def State.powerOn (s : State) : State := { State.reset with freeCount := s.freeCount, pending := s.pending }

/-! ## SOFT_RESET (R136, R149, R172) -/

/-- A staging status after SOFT_RESET: LOADING becomes BROKEN (R117). -/
def Staging.afterSoftReset (v : Staging) : Staging := if v = .loading then .broken else v

/-- A table after SOFT_RESET: kept but for a LOADING status (R136). -/
def TableState.afterSoftReset (t : TableState) : TableState := { t with status := t.status.afterSoftReset }

/-- The Table Store after SOFT_RESET (R136). -/
def TableStore.afterSoftReset (st : TableStore) : TableStore :=
  { st with
    posture := st.posture.afterSoftReset, zone := st.zone.afterSoftReset, cls := st.cls.afterSoftReset,
    gesture := st.gesture.afterSoftReset, pen := st.pen.afterSoftReset,
    holds := 0, load := none, commit := none, corrected := 0, verify := none }

/-- A transfer that runs across a SOFT_RESET: it goes on to its CS_N rise, and the record of a read no longer stands at
the head (R168). -/
def Transfer.outlived : Transfer → Transfer
  | .none => .none
  | .write collected => .write collected
  | .read record _ out => .read record false out
  | .ignoring => .ignoring

/-- SOFT_RESET takes effect: every block takes its values, the response is the emptied queue's first record, and
the enables in force are set (R149, R163, R172; log entry 10). -/
def State.softResetEffect (s : State) : State :=
  State.enablesFromRow
    (State.respond
      { s.resetKeeping s.store.afterSoftReset s.mode.toggle with
        port := { transfer := s.port.transfer.outlived, errors := 0 } }
      Command.softReset.code .done [])

end Sys2Proof.Machine
end

