-- ==== Sys2Proof/Machine/AtOnce.lean ====
section
/-! DEFINITION. How a command runs: the at-once steps that are due are taken before it (log entry 1), the part in
reset takes nothing but the reset lines (R148), and every step ends with the timers following their conditions. -/

namespace Sys2Proof.Machine

/-- What `exec` and `step` answer. -/
abbrev Answer := Host.Outcome State Fault Refusal

/-- An at-once step performed. -/
def State.perform (s : State) : Due → State
  | .softReset => s.softResetEffect
  | .forcedEnd f => s.takeForcedEnd f
  | .penDrop => s.takeDrop
  | .swap => s.takeSwap
  | .wakePhaseEnd => s.endWakePhase
  | .transitionComplete => s.completeTransition
  | .setModeStart => s.startSetMode
  | .senseTake f => s.takeSense f
  | .penTake => s.takePen

/-- At-once steps taken one after another while one is due; the fuel bounds them (log entry 28). -/
def State.settleBy : Nat → State → State
  | 0, s => s
  | n + 1, s =>
    match s.nextDue with
    | some d => State.settleBy n (s.perform d).finish
    | none => s

/-- Every at-once step due is taken. -/
def State.settle (s : State) : State := State.settleBy 64 s

/-- A command from outside the part: what is due is taken first; in reset nothing is taken (R148). -/
def afterDue (f : State → State) (s : State) : Answer :=
  .next (if s.inReset then s else (f s.settle).finish)

/-- An effect with the entry of a waiting response that a removal has just made room for: the effect's events may reach
the freed place first, and the response enters by the effect's end (R160, log entry 3). -/
def State.beforeEntry (f : State → State) (s : State) : State :=
  if s.entryDue then (f s).enterWaiting else f s

/-- A command that may come together with the end of a read: any but the host link's own. -/
def ordinary (f : State → State) (s : State) : Answer :=
  afterDue (State.beforeEntry f) s

/-- A step of the part that it takes at once: performed if it is due; if it is not, only what is due is taken. -/
def atOnce (d : Due) (s : State) : Answer :=
  .next (if s.inReset then s else if s.isDue d then (s.perform d).finish else s.settle)

/-- A row of the host link: it cannot come together with the end of the read before it, so a response that has room
enters first (R160). -/
def hostRow (f : State → State) (s : State) : Answer :=
  afterDue (fun t => f t.enterWaiting) s

/-- A host packet at the CS_N rise of its write transfer, sent to its consumer by its header (R166). -/
def hostPacket (channel : BitVec 2) (kind : BitVec 6) (p : Bytes) (s : State) : Answer :=
  hostRow (fun t => t.endPacket channel kind p) s

/-- A management command's packet (R169). -/
def hostCommand (c : Command) (p : Bytes) (s : State) : Answer :=
  hostPacket controlChannel c.code p s

/-- What the part does when no command waits: the at-once steps due, else a waiting response enters (R160),
else nothing (log entries 1 and 3). -/
def State.idle (s : State) : State :=
  if s.inReset then s
  else if s.nextDue.isSome then s.settle
  else s.enterWaiting

end Sys2Proof.Machine
end

