-- ==== Sys2Proof/Machine/FrameSteps.lean ====
section
/-! DEFINITION. The meanings of the frame operations' steps (chapters 2 to 6). -/

namespace Sys2Proof.Machine

/-- The linger timer runs out (R68). -/
def State.expireLinger (s : State) : State :=
  if s.pen.linger.isSome then { s with pen := s.pen.absent } else s

/-- SENSE_FRAME_TAKE (R6, R21 to R23). -/
def execSenseFrameTake (f : Surface) (s : State) : Answer :=
  atOnce (.senseTake f) s

/-- SLOT_REQUEST (R25 to R27, R78): one answer of the allocator. -/
def execSlotRequest (who : Requesters) (s : State) : Answer :=
  ordinary (fun t => t.allocate who) s

/-- SENSE_FRAME_COMPLETION (R28 to R35, R98). -/
def execSenseFrameCompletion (f : Surface) (s : State) : Answer :=
  ordinary (fun t => t.completeSense f) s

/-- FORCED_END (R36, R37, R47): a pending forced end is taken. -/
def execForcedEnd (f : Surface) (s : State) : Answer :=
  atOnce (.forcedEnd f) s

/-- PEN_FRAME_TAKE (R6, R60). -/
def execPenFrameTake (s : State) : Answer :=
  atOnce .penTake s

/-- PEN_FRAME_COMPLETION (R60 to R66). -/
def execPenFrameCompletion (s : State) : Answer :=
  ordinary State.completePen s

/-- PEN_DROP (R71, R72): a pending drop is taken. -/
def execPenDrop (s : State) : Answer :=
  atOnce .penDrop s

/-- LINGER_EXPIRY (R68). -/
def execLingerExpiry (s : State) : Answer :=
  ordinary State.expireLinger s

end Sys2Proof.Machine
end

