-- ==== Sys2Proof/Machine/HostSteps.lean ====
section
/-! DEFINITION. The meanings of the host link's transfers and the Command Unit's commands (chapters 9 and 10). -/

namespace Sys2Proof.Machine

/-- QUEUED_RESPONSE_ENTRY (R160, R170). -/
def execQueuedResponseEntry (s : State) : Answer :=
  afterDue State.enterWaiting s

/-- READ_TRANSFER_TAKEN (R164, R167). -/
def execReadTransferTaken (s : State) : Answer :=
  hostRow State.takeRead s

/-- READ_TRANSFER_END (R161, R167). -/
def execReadTransferEnd (clocked : Nat) (s : State) : Answer :=
  hostRow (fun t => t.endRead clocked) s

/-- IGNORED_TRANSFER (R164): a first byte that is neither code. -/
def execIgnoredTransfer (first : Byte) (s : State) : Answer :=
  hostRow (fun t => t.endIgnored first) s

/-- DISCARDED_WRITE_TRANSFER (R165, R166). -/
def execDiscardedWriteTransfer (bs : Bytes) (s : State) : Answer :=
  hostRow (fun t => t.endCollected bs) s

/-- UNKNOWN (R169): a CONTROL packet of no command's kind. -/
def execUnknown (kind : BitVec 6) (p : Bytes) (s : State) : Answer :=
  hostPacket controlChannel kind p s

/-- IDENTIFY (R171, R169). -/
def execIdentify (p : Bytes) (s : State) : Answer :=
  hostCommand .identify p s

/-- GET_STATUS (R173, R169). -/
def execGetStatus (p : Bytes) (s : State) : Answer :=
  hostCommand .getStatus p s

/-- SET_MODE (R147, R169). -/
def execSetMode (p : Bytes) (s : State) : Answer :=
  hostCommand .setMode p s

/-- SET_POSTURE (R42, R169). -/
def execSetPosture (p : Bytes) (s : State) : Answer :=
  hostCommand .setPosture p s

/-- SET_NOTICES (R174, R169). -/
def execSetNotices (p : Bytes) (s : State) : Answer :=
  hostCommand .setNotices p s

/-- CLEAR_COUNTERS (R175, R169). -/
def execClearCounters (p : Bytes) (s : State) : Answer :=
  hostCommand .clearCounters p s

end Sys2Proof.Machine
end

