-- ==== Sys2Proof/Machine/LineSteps.lean ====
section
/-! DEFINITION. The meanings of the KEYACT and BTN lines (chapters 5 and 6). -/

namespace Sys2Proof.Machine

/-- The typing-guard timer after a pulse: typing hold in units of 10 ms, 0 stops it (R88). -/
def typingTimer (hold : Nat) : Timer := if hold = 0 then none else some (10 * hold)

/-- A KEYACT pulse: the timer by the current row's typing hold, then R43's evaluation (R88). -/
def State.keyPulse (s : State) : State :=
  State.consultPosture { s with palm := { s.palm with typing := typingTimer s.postureRow.typingHold } }

/-- The state after the lookups of a press, one per position (R54). -/
def State.afterLookups (posture : Nat) : List (Nat × Nat) → State → State
  | [], s => s
  | _ :: ps, s => State.afterLookups posture ps (s.afterLookup posture)

/-- Some position's lookup answers RCLICK (R54). -/
def State.anyRclick (posture : Nat) : List (Nat × Nat) → State → Bool
  | [], _ => false
  | (x, y) :: ps, s => s.lookup .pad x y posture == .rclick || State.anyRclick posture ps (s.afterLookup posture)

/-- The button a press is of (R54). -/
def State.pressed (s : State) : Button :=
  if s.anyRclick s.command.select s.gesture.clickView then .right else .left

/-- A BTN press (R54, R112): ignored while the pad is disabled or a button is pressed. -/
def State.pressButton (s : State) : State :=
  if s.command.enables.pad = true ∧ s.gesture.button = .none then
    let t := s.afterLookups s.command.select s.gesture.clickView
    State.offer { t with gesture := { t.gesture with button := s.pressed } } [.data .pad (.pointer 0 0 s.pressed.buttons)]
  else s

/-- A BTN release (R112): ignored while the pad is disabled or no button is pressed. A release taken here
leaves nothing for R47 to release. -/
def State.releaseButton (s : State) : State :=
  if s.command.enables.pad = true ∧ s.gesture.button ≠ .none then
    State.offer { s with gesture := { s.gesture with button := .none, releaseOwed := false } }
      [.data .pad (.pointer 0 0 Button.none.buttons)]
  else s

/-- KEYACT (R88, R43): one pulse. -/
def execKeyact (s : State) : Answer :=
  ordinary State.keyPulse s

/-- TYPING_GUARD_EXPIRY (R88): the timer stops; it raises nothing. -/
def execTypingGuardExpiry (s : State) : Answer :=
  ordinary (fun t => { t with palm := { t.palm with typing := none } }) s

/-- BTN_PRESS (R54, R112). -/
def execBtnPress (s : State) : Answer :=
  ordinary State.pressButton s

/-- BTN_RELEASE (R112). -/
def execBtnRelease (s : State) : Answer :=
  ordinary State.releaseButton s

end Sys2Proof.Machine
end

