-- ==== Sys2Proof/Machine/LinkSteps.lean ====
section
/-! DEFINITION. The meanings of the sensor-link steps: packets, link timers, transmissions, pass-down (chapters 1 and 8). -/

namespace Sys2Proof.Machine

/-- The identity-reply timeout of a link, if its query is outstanding (R140). -/
def State.expireQuery (s : State) (l : Surface) : State :=
  if (s.link l).query.isSome then
    (s.setLink l { s.link l with query := none, outcome := .noReply }).linkTimeout l .noReply
  else s

/-- The scan-settle timeout of a link, if its timer runs: the scan change ends without an ack (R138). -/
def State.expireSettle (s : State) (l : Surface) : State :=
  if (s.link l).settle.isSome then (s.setLink l (s.link l).endScan).linkTimeout l .noAck else s

/-- A completed transmission, and the arbiter's next choice (R16); none when the completion lets a SOFT_RESET
take effect (R149; log entry 9). -/
def State.completeTransmission (s : State) (l : Surface) : State :=
  match (s.link l).sending with
  | some p =>
    let t := s.setLink l (Link.sent { s.link l with sending := none } p)
    if t.softResetDue then t else t.setLink l (t.link l).arbitrate
  | none => s

/-- SENSE_FRAME (R1 to R5, R9, R11): a packet arrives; its header sorts it (R2). -/
def execSenseFrame (l : Surface) (bs : Bytes) (s : State) : Answer :=
  ordinary (fun t => t.packetArrives l bs) s

/-- PEN_FRAME (R1 to R5): a packet arrives; its header sorts it (R2). -/
def execPenFrame (l : Surface) (bs : Bytes) (s : State) : Answer :=
  ordinary (fun t => t.packetArrives l bs) s

/-- SCAN_ACK (R138, R8): a packet arrives; its header sorts it (R2). -/
def execScanAck (l : Surface) (bs : Bytes) (s : State) : Answer :=
  ordinary (fun t => t.packetArrives l bs) s

/-- WAKE (R145): a packet arrives; its header sorts it (R2). -/
def execWake (l : Surface) (bs : Bytes) (s : State) : Answer :=
  ordinary (fun t => t.packetArrives l bs) s

/-- ID_REPLY (R140, R8): a packet arrives; its header sorts it (R2). -/
def execIdReply (l : Surface) (bs : Bytes) (s : State) : Answer :=
  ordinary (fun t => t.packetArrives l bs) s

/-- PASS_UP (R12, R155, R177): a packet arrives; its header sorts it (R2). -/
def execPassUp (l : Surface) (bs : Bytes) (s : State) : Answer :=
  ordinary (fun t => t.packetArrives l bs) s

/-- STALL_WATCH_EXPIRY (R9, R10): only a running watch runs out. -/
def execStallWatchExpiry (l : Surface) (s : State) : Answer :=
  ordinary (fun t => if (t.link l).watch.isSome then t.enterStalled l .silence else t) s

/-- IDENTITY_REPLY_TIMEOUT (R140, R8). -/
def execIdentityReplyTimeout (l : Surface) (s : State) : Answer :=
  ordinary (fun t => t.expireQuery l) s

/-- SCAN_SETTLE_TIMEOUT (R138, R8). -/
def execScanSettleTimeout (l : Surface) (s : State) : Answer :=
  ordinary (fun t => t.expireSettle l) s

/-- TRANSMISSION_COMPLETE (R16, R138, R140). -/
def execTransmissionComplete (l : Surface) (s : State) : Answer :=
  ordinary (fun t => t.completeTransmission l) s

/-- PASS_DOWN (R13, R166): a host packet taken on a link's channel. -/
def execPassDown (l : Surface) (kind : BitVec 6) (p : Bytes) (s : State) : Answer :=
  hostPacket (linkChannel l) kind p s

end Sys2Proof.Machine
end

