-- ==== Sys2Proof/Machine/ModeSteps.lean ====
section
/-! DEFINITION. The meanings of the Mode Engine's steps (chapter 8). -/

namespace Sys2Proof.Machine

/-- The auto-idle timer runs out (R142). -/
def State.expireAutoIdle (s : State) : State :=
  if s.mode.autoIdle.isSome then s.beginScan .idle .auto else s

/-- AUTO_IDLE_EXPIRY (R142). -/
def execAutoIdleExpiry (s : State) : Answer :=
  ordinary State.expireAutoIdle s

/-- WAKE_DWELL_EXPIRY (R146): the dwell stops; a waiting SET_MODE SLEEP may then start (R147). -/
def execWakeDwellExpiry (s : State) : Answer :=
  ordinary (fun t => { t with mode := { t.mode with dwell := none } }) s

/-- WAKE_PHASE_END (R141). -/
def execWakePhaseEnd (s : State) : Answer :=
  atOnce .wakePhaseEnd s

/-- TRANSITION_COMPLETE (R139). -/
def execTransitionComplete (s : State) : Answer :=
  atOnce .transitionComplete s

/-- SET_MODE_START (R147, R140, R144, R146). -/
def execSetModeStart (s : State) : Answer :=
  atOnce .setModeStart s

end Sys2Proof.Machine
end

