-- ==== Sys2Proof/Machine/ResetSteps.lean ====
section
/-! DEFINITION. The meanings of the resets (chapters 8 and 10). -/

namespace Sys2Proof.Machine

/-- SOFT_RESET (R149, R172): taken; its payload is ignored. -/
def execSoftReset (p : Bytes) (s : State) : Answer :=
  hostCommand .softReset p s

/-- SOFT_RESET_EFFECT (R149, R172). -/
def execSoftResetEffect (s : State) : Answer :=
  atOnce .softReset s

/-- RESET_N_ASSERT (R148): a low level is accepted, in any state. -/
def execResetNAssert (s : State) : Answer :=
  .next s.assertReset

/-- RESET_N_RELEASE (R148). -/
def execResetNRelease (s : State) : Answer :=
  .next s.releaseReset

/-- POWER_ON_RESET (R148), in any state. -/
def execPowerOnReset (s : State) : Answer :=
  .next s.powerOn

end Sys2Proof.Machine
end

