-- ==== Sys2Proof/Machine/TableSteps.lean ====
section
/-! DEFINITION. The meanings of the Table Store's commands and events (chapter 7). -/

namespace Sys2Proof.Machine

/-- SWAP (R126). -/
def execSwap (s : State) : Answer :=
  atOnce .swap s

/-- COPY_END (R127, R128): the copy of a table ends. -/
def execCopyEnd (t : Table) (s : State) : Answer :=
  ordinary (fun u => u.endCopy t) s

/-- VERIFY_PASS_END (R130). -/
def execVerifyPassEnd (s : State) : Answer :=
  ordinary State.endVerify s

/-- LOAD_STEP_TIMEOUT (R122). -/
def execLoadStepTimeout (s : State) : Answer :=
  ordinary State.loadTimeout s

/-- LOAD_BEGIN (R119, R169). -/
def execLoadBegin (p : Bytes) (s : State) : Answer :=
  hostCommand .loadBegin p s

/-- LOAD_ROWS (R120, R169). -/
def execLoadRows (p : Bytes) (s : State) : Answer :=
  hostCommand .loadRows p s

/-- LOAD_END (R121, R169). -/
def execLoadEnd (p : Bytes) (s : State) : Answer :=
  hostCommand .loadEnd p s

/-- LOAD_ABORT (R122, R169). -/
def execLoadAbort (p : Bytes) (s : State) : Answer :=
  hostCommand .loadAbort p s

/-- COMMIT (R124, R169). -/
def execCommit (p : Bytes) (s : State) : Answer :=
  hostCommand .commit p s

/-- REVERT (R128, R169). -/
def execRevert (p : Bytes) (s : State) : Answer :=
  hostCommand .revert p s

/-- READ_ROWS (R129, R169). -/
def execReadRows (p : Bytes) (s : State) : Answer :=
  hostCommand .readRows p s

/-- VERIFY (R130, R169). -/
def execVerify (p : Bytes) (s : State) : Answer :=
  hostCommand .verify p s

/-- LOCK_ZONES (R134, R169). -/
def execLockZones (p : Bytes) (s : State) : Answer :=
  hostCommand .lockZones p s

end Sys2Proof.Machine
end

