-- ==== Sys2Proof/Machine/Dispatch.lean ====
section
/-! DEFINITION. The one dispatch of the part's steps: one arm per row of spec/opcode_table.json. -/

namespace Sys2Proof.Machine

/-- A command's effect on everything but the queue of commands. -/
def exec (i : Instr) (s : State) : Host.Outcome State Fault Refusal :=
  match i with
  | .senseFrame l bs => Sys2Proof.Machine.execSenseFrame l bs s
  | .penFrame l bs => Sys2Proof.Machine.execPenFrame l bs s
  | .scanAck l bs => Sys2Proof.Machine.execScanAck l bs s
  | .wake l bs => Sys2Proof.Machine.execWake l bs s
  | .idReply l bs => Sys2Proof.Machine.execIdReply l bs s
  | .passUp l bs => Sys2Proof.Machine.execPassUp l bs s
  | .stallWatchExpiry l => Sys2Proof.Machine.execStallWatchExpiry l s
  | .identityReplyTimeout l => Sys2Proof.Machine.execIdentityReplyTimeout l s
  | .scanSettleTimeout l => Sys2Proof.Machine.execScanSettleTimeout l s
  | .transmissionComplete l => Sys2Proof.Machine.execTransmissionComplete l s
  | .senseFrameTake f => Sys2Proof.Machine.execSenseFrameTake f s
  | .slotRequest who => Sys2Proof.Machine.execSlotRequest who s
  | .senseFrameCompletion f => Sys2Proof.Machine.execSenseFrameCompletion f s
  | .forcedEnd f => Sys2Proof.Machine.execForcedEnd f s
  | .penFrameTake => Sys2Proof.Machine.execPenFrameTake s
  | .penFrameCompletion => Sys2Proof.Machine.execPenFrameCompletion s
  | .penDrop => Sys2Proof.Machine.execPenDrop s
  | .lingerExpiry => Sys2Proof.Machine.execLingerExpiry s
  | .keyact => Sys2Proof.Machine.execKeyact s
  | .typingGuardExpiry => Sys2Proof.Machine.execTypingGuardExpiry s
  | .btnPress => Sys2Proof.Machine.execBtnPress s
  | .btnRelease => Sys2Proof.Machine.execBtnRelease s
  | .autoIdleExpiry => Sys2Proof.Machine.execAutoIdleExpiry s
  | .wakeDwellExpiry => Sys2Proof.Machine.execWakeDwellExpiry s
  | .wakePhaseEnd => Sys2Proof.Machine.execWakePhaseEnd s
  | .transitionComplete => Sys2Proof.Machine.execTransitionComplete s
  | .setModeStart => Sys2Proof.Machine.execSetModeStart s
  | .swap => Sys2Proof.Machine.execSwap s
  | .copyEnd t => Sys2Proof.Machine.execCopyEnd t s
  | .verifyPassEnd => Sys2Proof.Machine.execVerifyPassEnd s
  | .loadStepTimeout => Sys2Proof.Machine.execLoadStepTimeout s
  | .queuedResponseEntry => Sys2Proof.Machine.execQueuedResponseEntry s
  | .readTransferTaken => Sys2Proof.Machine.execReadTransferTaken s
  | .readTransferEnd clocked => Sys2Proof.Machine.execReadTransferEnd clocked s
  | .ignoredTransfer first => Sys2Proof.Machine.execIgnoredTransfer first s
  | .passDown l kind p => Sys2Proof.Machine.execPassDown l kind p s
  | .unknown kind p => Sys2Proof.Machine.execUnknown kind p s
  | .identify p => Sys2Proof.Machine.execIdentify p s
  | .getStatus p => Sys2Proof.Machine.execGetStatus p s
  | .setMode p => Sys2Proof.Machine.execSetMode p s
  | .setPosture p => Sys2Proof.Machine.execSetPosture p s
  | .setNotices p => Sys2Proof.Machine.execSetNotices p s
  | .loadBegin p => Sys2Proof.Machine.execLoadBegin p s
  | .loadRows p => Sys2Proof.Machine.execLoadRows p s
  | .loadEnd p => Sys2Proof.Machine.execLoadEnd p s
  | .loadAbort p => Sys2Proof.Machine.execLoadAbort p s
  | .commit p => Sys2Proof.Machine.execCommit p s
  | .revert p => Sys2Proof.Machine.execRevert p s
  | .readRows p => Sys2Proof.Machine.execReadRows p s
  | .verify p => Sys2Proof.Machine.execVerify p s
  | .lockZones p => Sys2Proof.Machine.execLockZones p s
  | .clearCounters p => Sys2Proof.Machine.execClearCounters p s
  | .softReset p => Sys2Proof.Machine.execSoftReset p s
  | .softResetEffect => Sys2Proof.Machine.execSoftResetEffect s
  | .resetNAssert => Sys2Proof.Machine.execResetNAssert s
  | .resetNRelease => Sys2Proof.Machine.execResetNRelease s
  | .powerOnReset => Sys2Proof.Machine.execPowerOnReset s
  | .discardedWriteTransfer bs => Sys2Proof.Machine.execDiscardedWriteTransfer bs s

end Sys2Proof.Machine
end

