-- ==== Sys2Proof/Safety.lean ====
section
/-! DEFINITION. What counts as a safe step, the conditions on a state in which a command is next to act, and the
relations among the parts of the state that the spec says hold throughout. -/

namespace Sys2Proof.Machine

/-- A safe step: the part goes on. The spec names no state in which it stops. -/
def SafeStep (s : State) : Prop := ∃ t, step s = .next t

/-- Out of reset with no at-once step due and no waiting response that has room: the next command acts on the state as
it stands (log entries 1 and 3). -/
abbrev Quiet (s : State) : Prop := s.inReset = false ∧ s.nextDue = none ∧ s.entryDue = false

/-- Quiet, and no transfer is in progress at the port: a host transfer may come to its CS_N rise (R164). -/
abbrev HostReady (s : State) : Prop := Quiet s ∧ s.port.transfer = .none

/-- The command slot is FREE and no SOFT_RESET is in progress (R169, R172). -/
abbrev SlotFree (s : State) : Prop := s.command.slot = none ∧ s.command.softReset = false

/-- A management command taken now runs, its length being one it accepts (R169). -/
abbrev CommandReady (s : State) : Prop := HostReady s ∧ SlotFree s

/-! ## The rows by what they carry -/

/-- The link and the run of bytes of a row on which a sensor-link packet arrives (R1, R2). -/
def packetOf : Instr → Option (Surface × Bytes)
  | .senseFrame l bs => some (l, bs)
  | .penFrame l bs => some (l, bs)
  | .scanAck l bs => some (l, bs)
  | .wake l bs => some (l, bs)
  | .idReply l bs => some (l, bs)
  | .passUp l bs => some (l, bs)
  | _ => none

/-- The run of bytes is well framed (R1) and carries a kind and a payload. -/
abbrev Carries (bs : Bytes) (k : BitVec 6) (p : Bytes) : Prop :=
  wellFramed bs = true ∧ kindOf bs = k ∧ payloadOf bs = p

/-- The at-once step that a row is the taking of (log entry 1). -/
def dueOf : Instr → Option Due
  | .senseFrameTake f => some (.senseTake f)
  | .forcedEnd f => some (.forcedEnd f)
  | .penFrameTake => some .penTake
  | .penDrop => some .penDrop
  | .wakePhaseEnd => some .wakePhaseEnd
  | .transitionComplete => some .transitionComplete
  | .setModeStart => some .setModeStart
  | .swap => some .swap
  | .softResetEffect => some .softReset
  | _ => none

/-- The rows of the reset lines and of power-on (R148). -/
def resetRow : Instr → Bool
  | .resetNAssert => true
  | .resetNRelease => true
  | .powerOnReset => true
  | _ => false

/-- The management command and payload of a row that the command slot governs (R169); SOFT_RESET is not one (R172). -/
def controlOf : Instr → Option (Command × Bytes)
  | .identify p => some (.identify, p)
  | .getStatus p => some (.getStatus, p)
  | .setMode p => some (.setMode, p)
  | .setPosture p => some (.setPosture, p)
  | .setNotices p => some (.setNotices, p)
  | .loadBegin p => some (.loadBegin, p)
  | .loadRows p => some (.loadRows, p)
  | .loadEnd p => some (.loadEnd, p)
  | .loadAbort p => some (.loadAbort, p)
  | .commit p => some (.commit, p)
  | .revert p => some (.revert, p)
  | .readRows p => some (.readRows, p)
  | .verify p => some (.verify, p)
  | .lockZones p => some (.lockZones, p)
  | .clearCounters p => some (.clearCounters, p)
  | _ => none

/-- The rows of the host link: a transfer's start, its end, or a packet at the end of its write transfer (R164 to R166). -/
def portRow : Instr → Bool
  | .readTransferTaken => true
  | .readTransferEnd _ => true
  | .ignoredTransfer _ => true
  | .discardedWriteTransfer _ => true
  | .passDown _ _ _ => true
  | .unknown _ _ => true
  | .softReset _ => true
  | c => (controlOf c).isSome

/-- The channel, kind and payload of a row on which a host packet is taken (R166). -/
def hostPacketOf : Instr → Option (BitVec 2 × BitVec 6 × Bytes)
  | .passDown l k p => some (linkChannel l, k, p)
  | .unknown k p => some (controlChannel, k, p)
  | .softReset p => some (controlChannel, Command.softReset.code, p)
  | c => (controlOf c).map (fun x => (controlChannel, x.1.code, x.2))

/-- The state with a command answered: its response offered, and the slot FREE once it has entered, else BUSY with
the command (R160, R169, R170). -/
def State.answered (s : State) (c : Command) (v : Status) (r : Bytes) : State := (s.occupy c.code).respond c.code v r

/-! ## Relations that hold throughout -/

/-- The Report Queue: at most 48 records (R155), and ATTN_N asserted exactly while it holds a record of an
attention-enabled class (R153). -/
abbrev QueueInv (q : ReportQueue) : Prop := q.records.length ≤ 48 ∧ q.attn = q.drawsAttention

/-- The Track Table: 20 slots, ids and pointer in 1..255, and no contact id in two occupied slots (R24, R25). -/
def TracksInv (t : TrackTable) : Prop :=
  t.slots.length = 20 ∧ (1 ≤ t.nextId ∧ t.nextId ≤ 255) ∧
    (∀ x : Track, some x ∈ t.slots → 1 ≤ x.id ∧ x.id ≤ 255) ∧
    ∀ (i j : Nat) (x y : Track), t.slots[i]? = some (some x) → t.slots[j]? = some (some y) → x.id = y.id → i = j

/-- The Pen Record's fields stand in the relation of R56 to its state. -/
def PenInv (p : PenUnit) : Prop :=
  match p.state with
  | .absent => p.followed = none ∧ p.linger = none ∧ p.conflict = false ∧ p.guard.active = false
  | .hover => p.followed.isSome ∧ p.lastSample.isSome ∧ p.linger = none
  | .ink => p.followed.isSome ∧ p.lastSample.isSome ∧ p.linger = none
  | .linger => p.followed.isSome ∧ p.lastSample.isSome ∧ p.linger.isSome ∧ p.guard.active = true

/-- The number of frame operations with a frame in progress. -/
def State.operations (s : State) : Nat := s.pad.op.isSome.toNat + s.panel.op.isSome.toNat + s.pen.op.isSome.toNat

/-- The frame-hold count: one for each frame operation with a frame in progress (R118). -/
abbrev HoldsInv (s : State) : Prop := s.store.holds = s.operations

/-- The Row Fault List: at most 8 entries, no duplicates (R133). -/
abbrev FaultsInv (st : TableStore) : Prop := st.faults.length ≤ 8 ∧ st.faults.Nodup

end Sys2Proof.Machine
end

