-- ==== Sys2Proof/Certificates/Slice0/Obligations.lean ====
section
/-! DEFINITION. The statements of this slice, one `Prop` each; OBLIGATIONS.json names the rules they come from. -/

open Sys2Proof Sys2Proof.Machine

/-! ## The command queue, at-once steps and timers -/

/-- A step takes the command at the front of the queue and runs it on the state with the queue's rest. -/
def Obligations.StepRunsFrontCommand : Prop :=
  ∀ (s : State) (c : Instr) (rest : List Instr), s.pending = c :: rest → step s = exec c (s.withPending rest)

/-- With no command waiting: in reset nothing happens; at-once steps that are due are taken; else a waiting response
that finds room enters and frees the command slot; else nothing happens. A waiting response enters by the end of the first
command after the removal that makes room for it, the rows of at-once steps apart (R160): QUEUED_RESPONSE_ENTRY lets it in;
before a row of the host link it has entered; the events of any other command may reach the freed place first, as WAKE's
does, and then it enters if there still is room. With none waiting, or no room, QUEUED_RESPONSE_ENTRY has no effect. Which of
the two orders that R160 leaves open a run shows is the model's choice, log entries 1, 2 and 3. -/
def Obligations.EmptyQueueAndWaitingResponse : Prop :=
  (∀ s : State, s.pending = [] →
     (s.inReset = true → step s = .next s) ∧
     (s.inReset = false → s.nextDue ≠ none → step s = .next s.settle) ∧
     (s.inReset = false → s.nextDue = none → (s.queue.waiting = none ∨ 48 ≤ s.queue.records.length) → step s = .next s) ∧
     (∀ r, s.inReset = false → s.nextDue = none → s.queue.waiting = some r → s.queue.records.length < 48 →
       step s = .next { s with
         queue := { s.queue with waiting := none }.enter (.response r),
         command := { s.command with slot := none } })) ∧
  (∀ s : State, Quiet s → (s.queue.waiting = none ∨ 48 ≤ s.queue.records.length) ∧
     exec .queuedResponseEntry s = .next s.finish) ∧
  (∀ (s entered : State) (r : Response), s.inReset = false → s.nextDue = none → s.queue.waiting = some r →
     s.queue.records.length < 48 →
     entered = { s with
       queue := { s.queue with waiting := none, records := s.queue.records ++ [Record.response r], attn := true },
       command := { s.command with slot := none } } →
     exec .queuedResponseEntry s = .next entered.finish ∧
     (∀ c, portRow c = true → exec c s = exec c entered) ∧
     (∀ c t, dueOf c = none → resetRow c = false → portRow c = false → exec c s = .next t →
       t.queue.waiting = none ∨ 48 ≤ t.queue.records.length) ∧
     (∀ (l : Surface) (bs p : Bytes) (u : State), Carries bs kindWake p → s.mode.mode = .doze → s.mode.transition = none →
       s.mode.setMode = none → s.enabled l = true → s.queue.reportMask.getLsbD (Event.wake l).kind = true →
       u = State.evaluateScans { s with
         queue := { s.queue with
           records := s.queue.records ++ [Record.event (.wake l)],
           attn := (s.queue.records ++ [Record.event (.wake l)]).any (Record.draws s.queue.attentionMask) },
         mode := { s.mode with
           mode := .active, transition := some { target := .active, phase := .scan, cause := .wake } } } →
       (s.queue.records.length = 47 → exec (.wake l bs) s = .next u.finish) ∧
       (s.queue.records.length < 47 → exec (.wake l bs) s = .next (State.finish { u with
         queue := { u.queue with waiting := none }.enter (.response r), command := { u.command with slot := none } }))))

/-- Every command goes on in every state: no fault, no refusal, of any step. In reset the part takes no packet, no transfer,
no KEYACT pulse, no BTN edge and no step of its own (R148). -/
def Obligations.EveryStepGoesOnAndResetHolds : Prop :=
  (∀ s : State, SafeStep s) ∧
  (∀ (c : Instr) (s : State), s.inReset = true → resetRow c = false → exec c s = .next s)

/-- Out of reset, a command that is neither an at-once row nor a reset row acts as it acts after everything due has been
taken; a row whose step the spec takes at once is performed where it is due, and elsewhere only what is due is taken.
Model's choice, log entries 1 and 2. -/
def Obligations.CommandsFollowWhatIsDue : Prop :=
  (∀ (c : Instr) (s : State), s.inReset = false → dueOf c = none → resetRow c = false →
     exec c s = exec c s.settle) ∧
  (∀ (c : Instr) (d : Due) (s : State), s.inReset = false → dueOf c = some d →
     (s.isDue d = true → exec c s = .next (s.perform d).finish) ∧
     (s.isDue d = false → exec c s = .next s.settle))

/-- The taking of what is due ends: nothing is due after it. Model's bound, log entry 28. -/
def Obligations.SettlingEnds : Prop := ∀ s : State, s.settle.nextDue = none

/-- At the end of a step each stall watch runs exactly under the four conditions of R9, started with the mode's full
stall time where it was stopped; the auto-idle timer runs exactly under the five of R142, started with the delay;
nothing else changes. -/
def Obligations.TimersFollowTheirConditions : Prop :=
  ∀ s : State,
    (∀ l : Surface, s.finish.link l = { s.link l with
      watch := if (s.link l).state = .up ∧ (s.mode.mode = .active ∨ s.mode.mode = .idle) ∧ s.mode.transition = none ∧
            (s.link l).scanChange = false ∧ s.enabled l = true
        then some ((s.link l).watch.getD (if s.mode.mode = .active then 100 else 500)) else none }) ∧
    s.finish.mode = { s.mode with
      autoIdle := if s.mode.mode = .active ∧ s.mode.transition = none ∧ s.mode.delay ≠ 0 ∧ (∀ o ∈ s.tracks.slots, o = none) ∧
          s.pen.state = .absent ∧ s.mode.setMode = none
        then some (s.mode.autoIdle.getD (100 * s.mode.delay)) else none } ∧
    { s.finish with padLink := s.padLink, panelLink := s.panelLink, mode := s.mode } = s

/-! ## The Report Queue -/

/-- An event raised: kept out by the report mask without a trace; of a reported kind, entered at the tail below 48 records
with the line re-evaluated, else dropped and counted (R152, R159). A command's answer (R160, R170): below 48 records the
response enters at the tail and the slot is FREE; else it waits, and the slot stays BUSY with the command. -/
def Obligations.EventAndResponseEntry : Prop :=
  (∀ (s : State) (e : Event),
     (s.queue.reportMask.getLsbD e.kind = false → s.raise e = s) ∧
     (s.queue.reportMask.getLsbD e.kind = true → s.queue.records.length < 48 →
       s.raise e = { s with queue := { s.queue with
         records := s.queue.records ++ [Record.event e],
         attn := (s.queue.records ++ [Record.event e]).any (Record.draws s.queue.attentionMask) } }) ∧
     (s.queue.reportMask.getLsbD e.kind = true → 48 ≤ s.queue.records.length →
       s.raise e = { s with queue := { s.queue with lost := min 65535 (s.queue.lost + 1) } })) ∧
  (∀ (s : State) (c : Command) (v : Status) (r : Bytes),
     (s.queue.records.length < 48 →
       s.answered c v r = { s with
         queue := { s.queue with
           records := s.queue.records ++ [Record.response { kind := c.code, status := v, result := r }], attn := true },
         command := { s.command with slot := none } }) ∧
     (48 ≤ s.queue.records.length →
       s.answered c v r = { s with
         queue := { s.queue with waiting := some { kind := c.code, status := v, result := r } },
         command := { s.command with slot := some c.code } }))

/-- A data record offered alone (R155 to R157): a stream not in resync enters below 40 records and else starts a resync at
1; a stream in resync is refused and counted above 32 records, and else enters one RESYNC record with its count and the
stream's state in place of the record, and leaves resync. In an offer group the records of its stream after a RESYNC record
are absorbed; its events, and its records of other streams, are offered as usual (R154, R157). -/
def Obligations.DataRecordEntry : Prop :=
  (∀ (s : State) (d : DataStream) (r : Record),
     (s.queue.resync d = none → s.queue.records.length < 40 →
       s.offer [.data d r] = { s with queue := s.queue.enter r }) ∧
     (s.queue.resync d = none → 40 ≤ s.queue.records.length →
       s.offer [.data d r] = { s with queue := s.queue.setResync d (some 1) }) ∧
     (∀ n, s.queue.resync d = some n → 32 < s.queue.records.length →
       s.offer [.data d r] = { s with queue := s.queue.setResync d (some (min 65535 (n + 1))) }) ∧
     (∀ n, s.queue.resync d = some n → s.queue.records.length ≤ 32 →
       s.offer [.data d r] =
         { s with queue := (s.queue.enter (.resync n (s.restate d))).setResync d none })) ∧
  (∀ (restate : DataStream → Restated) (absorbed : List DataStream) (rest : List Offer) (q : ReportQueue),
     ReportQueue.offerAll restate [] absorbed q = q ∧
     (∀ e, ReportQueue.offerAll restate (.event e :: rest) absorbed q =
       ReportQueue.offerAll restate rest absorbed (q.raise e)) ∧
     (∀ d r, d ∈ absorbed → ReportQueue.offerAll restate (.data d r :: rest) absorbed q =
       ReportQueue.offerAll restate rest absorbed q) ∧
     (∀ d r n, d ∉ absorbed → q.resync d = some n → q.records.length ≤ 32 →
       ReportQueue.offerAll restate (.data d r :: rest) absorbed q =
         ReportQueue.offerAll restate rest (d :: absorbed) ((q.enter (.resync n (restate d))).setResync d none)) ∧
     (∀ d r, d ∉ absorbed → (∀ n, q.resync d = some n → 32 < q.records.length) →
       ReportQueue.offerAll restate (.data d r :: rest) absorbed q =
         ReportQueue.offerAll restate rest absorbed (ReportQueue.offerAll restate [.data d r] [] q)))

/-- What a RESYNC record carries (R158): for the PAD the button state and the code of an ACTIVE context; for the PANEL
the last frame time, the code of an ACTIVE context and, in ascending contact id, exactly the LIVE panel tracks without
an end mark; for the PEN its state and last sample, with the values of the leaving record in LINGER and ABSENT. -/
def Obligations.RestatedState : Prop :=
  ∀ s : State,
    (∃ code, s.restate .pad = .pad s.gesture.button.buttons code ∧
      (∀ w, s.pad.context.state = .active → s.pad.context.winner = some w → code = w.rule.code) ∧
      (s.pad.context.state ≠ .active → code = 0)) ∧
    (∃ code cs, s.restate .panel = .panel s.panel.lastTime code cs ∧
      (∀ w, s.panel.context.state = .active → s.panel.context.winner = some w → code = w.rule.code) ∧
      (s.panel.context.state ≠ .active → code = 0) ∧
      cs.Pairwise (fun c c' => c.id ≤ c'.id) ∧
      ∀ c : Contact, c ∈ cs ↔ ∃ t, some t ∈ s.tracks.slots ∧ t.surface = .panel ∧ t.state = .live ∧
        t.endMark = false ∧ c = { id := t.id, x := t.x, y := t.y, area := t.area }) ∧
    s.restate .pen = .pen s.pen.state
      (match s.pen.state with
       | .hover => s.pen.lastSample
       | .ink => s.pen.lastSample
       | .absent => s.pen.lastSample.map (fun p => { p with pressure := 0, hover := 255, barrel := false, eraser := false })
       | .linger => s.pen.lastSample.map (fun p => { p with pressure := 0, hover := 255, barrel := false, eraser := false }))

/-- Every step keeps the Report Queue at 48 records or fewer and ATTN_N asserted exactly while it holds a record of an
attention-enabled class (R153, R155). -/
def Obligations.ReportQueueKept : Prop :=
  ∀ s t : State, QueueInv s.queue → step s = .next t → QueueInv t.queue

/-! ## Sensor links -/

/-- A packet that fails framing adds one to its link's error counter and does nothing else, on every packet row (R1). A
well-framed one goes by its kind, whatever row it stands on and whatever its channel: on the pad link a PEN_FRAME is a link
error; a kind the part does not consume is passed up (R2). The kind is the low six bits of the first byte, the payload the
bytes after the second, as many as it declares; the kinds of the sensor links are 11.2's, 0x01 SENSE_FRAME to 0x05 ID_REPLY
consumed, and every other one not, 0x10 SCAN_CONTROL and 0x11 ID_QUERY among them. -/
def Obligations.PacketsFramedAndSorted : Prop :=
  ((∀ bs : Bytes, wellFramed bs = true ↔
     2 ≤ bs.length ∧ bs.length = u8At bs 1 + 3 ∧ crc8 (bs.take (u8At bs 1 + 2)) = byteAt bs (u8At bs 1 + 2)) ∧
   ∀ (c : Instr) (l : Surface) (bs : Bytes) (s : State), packetOf c = some (l, bs) → Quiet s → wellFramed bs = false →
     exec c s = .next (State.finish (s.setLink l { s.link l with errors := min 65535 ((s.link l).errors + 1) }))) ∧
  ((∀ bs : Bytes, (kindOf bs).toNat = u8At bs 0 % 64 ∧ payloadOf bs = (bs.drop 2).take (u8At bs 1)) ∧
   (∀ k : BitVec 6, consumedKind k = true ↔ k ∈ [0x01#6, 0x02#6, 0x03#6, 0x04#6, 0x05#6]) ∧
   [kindSenseFrame, kindPenFrame, kindScanAck, kindWake, kindIdReply, kindScanControl, kindIdQuery] =
     [0x01#6, 0x02#6, 0x03#6, 0x04#6, 0x05#6, 0x10#6, 0x11#6]) ∧
  (∀ (c : Instr) (l : Surface) (bs p : Bytes) (k : BitVec 6) (s : State), packetOf c = some (l, bs) → Quiet s →
     Carries bs k p →
     (k = 0x01#6 → exec c s = .next (s.sensePayload l p).finish) ∧
     (k = 0x02#6 → l = .pad → exec c s = .next (State.finish
       (s.setLink .pad { s.padLink with errors := min 65535 (s.padLink.errors + 1) }))) ∧
     (k = 0x02#6 → l = .panel → exec c s = .next (s.penPayload .panel p).finish) ∧
     (k = 0x03#6 → exec c s = .next (s.ackPayload l p).finish) ∧
     (k = 0x04#6 → exec c s = .next (s.wakeArrives l).finish) ∧
     (k = 0x05#6 → exec c s = .next (s.idReplyArrives l).finish) ∧
     (k ∉ [0x01#6, 0x02#6, 0x03#6, 0x04#6, 0x05#6] → exec c s = .next (s.passUpArrives l k p).finish))

/-- The content checks (R3) and the layouts of frames and rows (R57, R176, R178, 11.2, 11.5). Which payloads carry a frame,
which values it has and where each stands in the payload; a malformed frame adds one to the link's error counter and does
nothing else. A row's fields as every read of its bytes gives them: POSTURE, ZONE, CLASS, GESTURE and PEN. -/
def Obligations.FrameAndRowFormats : Prop :=
  (∀ (f : Surface) (p : Bytes), (parseSense f p).isSome = true ↔
    u8At p 2 ≤ 16 ∧ p.length = 3 + 9 * u8At p 2 ∧
      ∀ i < u8At p 2, u16At p (3 + 9 * i) ≤ maxX f ∧ u16At p (5 + 9 * i) ≤ maxY f ∧ u16At p (8 + 9 * i) ≤ 4095) ∧
  (∀ p : Bytes, (parsePen p).isSome = true ↔
    p.length = 16 ∧ u32At p 2 ≠ 0 ∧ u16At p 7 ≤ 16383 ∧ u16At p 9 ≤ 10239 ∧ u16At p 11 ≤ 4095 ∧
      (-60 ≤ (byteAt p 13).toInt ∧ (byteAt p 13).toInt ≤ 60) ∧ (-60 ≤ (byteAt p 14).toInt ∧ (byteAt p 14).toInt ≤ 60)) ∧
  ((maxX .pad, maxY .pad) = (4095, 2559) ∧ (maxX .panel, maxY .panel) = (16383, 10239)) ∧
  (∀ (f : Surface) (p : Bytes) (fr : SenseFrame), parseSense f p = some fr →
    fr.time.toNat = u16At p 0 ∧ fr.candidates.length = u8At p 2 ∧
    ∀ i < u8At p 2, fr.candidates[i]? = some
      { x := u16At p (3 + 9 * i), y := u16At p (5 + 9 * i), area := u8At p (7 + 9 * i), peak := u16At p (8 + 9 * i),
        major := u8At p (10 + 9 * i), minor := u8At p (11 + 9 * i) }) ∧
  (∀ (p : Bytes) (fr : PenFrame), parsePen p = some fr →
    fr.serial.toNat = u32At p 2 ∧ fr.inRange = (u8At p 6).testBit 0 ∧ fr.tip = (u8At p 6).testBit 1 ∧
    fr.sample.time.toNat = u16At p 0 ∧
    fr.sample = { time := fr.sample.time, x := u16At p 7, y := u16At p 9, pressure := u16At p 11, tiltX := byteAt p 13,
                  tiltY := byteAt p 14, barrel := (u8At p 6).testBit 2, eraser := (u8At p 6).testBit 3,
                  hover := u8At p 15 }) ∧
  (∀ (bs : Bytes) (i : Nat), u8At bs i = (bs.getD i 0#8).toNat ∧ u16At bs i = u8At bs i + 256 * u8At bs (i + 1) ∧
    u32At bs i = u8At bs i + 256 * u8At bs (i + 1) + 65536 * u8At bs (i + 2) + 16777216 * u8At bs (i + 3)) ∧
  (∀ (l : Surface) (p : Bytes) (s : State), parseSense l p = none →
    s.sensePayload l p = s.setLink l { s.link l with errors := min 65535 ((s.link l).errors + 1) }) ∧
  (∀ (p : Bytes) (s : State), parsePen p = none →
    s.penPayload .panel p = s.setLink .panel { s.panelLink with errors := min 65535 (s.panelLink.errors + 1) }) ∧
  (∀ (b : Bytes) (surface : Option Surface),
    ((u8At b 1 = 0 → surface = some .pad) ∧ (u8At b 1 = 1 → surface = some .panel) ∧ (2 ≤ u8At b 1 → surface = none)) →
    postureOf b = {
      enables := { pad := (u8At b 0).testBit 0, panel := (u8At b 0).testBit 1, pen := (u8At b 0).testBit 2 },
      padProfile := u8At b 1 % 8, panelProfile := u8At b 2 % 8, typingHold := u8At b 3,
      padGather := u8At b 4, panelGather := u8At b 5 } ∧
    zoneOf b = {
      kind := match u8At b 0 with
        | 1 => .block | 2 => .pass | 3 => .rclick | 4 => .guard | 5 => .edge | _ => .none,
      surface := surface, xLo := u16At b 2, xHi := u16At b 4, yLo := u16At b 6, yHi := u16At b 8 } ∧
    profileOf b = {
      matchRadius := u16At b 0, confirm := u8At b 2 % 8,
      missLimit := if u8At b 3 = 0 then 1 else if 4 < u8At b 3 then 4 else u8At b 3,
      palmArea := u8At b 4, palmLength := u8At b 5, guardArea := u8At b 6, neighbour := u16At b 8, gain := u16At b 10 } ∧
    ruleOf b = {
      enabled := (u8At b 0).testBit 0, edge := (u8At b 0).testBit 1, consume := (u8At b 0).testBit 2,
      surface := surface, fingers := u8At b 2,
      kind := match u8At b 3 with
        | 0 => some .tap | 1 => some .hold | 2 => some .swipeLeft | 3 => some .swipeRight | 4 => some .swipeUp
        | 5 => some .swipeDown | 6 => some .pinchIn | 7 => some .pinchOut | _ => none,
      action := match u8At b 4 with | 1 => .left | 2 => .right | 3 => .middle | _ => .report,
      distance := u16At b 5 % 4096, timeMin := u8At b 7, timeMax := u8At b 8, code := u8At b 9 } ∧
    (penSerialOf b).toNat = u32At b 0 ∧
    penProfileOf b = {
      hand := match u8At b 4 % 4 with | 1 => .left | 2 => .right | _ => .none,
      ahead := 64 * u8At b 5, behind := 64 * u8At b 6, above := 64 * u8At b 7, below := 64 * u8At b 8,
      hoverLimit := u8At b 9, inkThreshold := 16 * u8At b 10, linger := u8At b 11, retroWindow := u8At b 4 / 16 })

/-- SENSE_FRAME, well formed. A running stall watch restarts at the full stall time (R9); a STALLED link is UP again
with LINK_BACK (R8, R11); the current POSTURE row is read (R41, R43). Under a discarding condition of R4 nothing else
happens; otherwise the frame reaches the waiting slot, empty or replacing the frame there with one more in the overrun
counter and the tally (R5). That the row's read follows LINK_BACK and precedes the slot is log entry 12. -/
def Obligations.SenseFrameArrival : Prop :=
  ∀ (l : Surface) (bs p : Bytes) (fr : SenseFrame) (s : State), Quiet s → Carries bs kindSenseFrame p →
    parseSense l p = some fr →
    ∃ u : State,
      u = { s.setLink l { s.link l with
              watch := (s.link l).watch.map (fun _ => if s.mode.mode = .active then 100 else 500),
              state := if (s.link l).state = .stalled then .up else (s.link l).state } with
            queue := if (s.link l).state = .stalled then s.queue.raise (.linkBack l) else s.queue } ∧
      (((s.mode.mode = .sleep ∨ s.mode.mode = .waking ∨ s.mode.mode = .doze ∨ s.heading .sleep = true ∨
          s.heading .doze = true) ∨ (s.link l).scanChange = true ∨ u.postureRow.enables.of l = false) →
        exec (.senseFrame l bs) s = .next u.consultPosture.finish) ∧
      (¬ ((s.mode.mode = .sleep ∨ s.mode.mode = .waking ∨ s.mode.mode = .doze ∨ s.heading .sleep = true ∨
          s.heading .doze = true) ∨ (s.link l).scanChange = true ∨ u.postureRow.enables.of l = false) →
        exec (.senseFrame l bs) s = .next (State.finish (u.consultPosture.setUnit l { u.consultPosture.unit l with
          slot := { frame := some fr,
                    tally := if (u.consultPosture.unit l).slot.frame = none then (u.consultPosture.unit l).slot.tally
                      else min 255 ((u.consultPosture.unit l).slot.tally + 1) },
          overruns := if (u.consultPosture.unit l).slot.frame = none then (u.consultPosture.unit l).overruns
            else min 65535 ((u.consultPosture.unit l).overruns + 1) })))

/-- PEN_FRAME on the panel link, well formed (R4, R5): discarded without a trace in a discarding mode or during the
link's scan change; otherwise it reaches the pen slot, whatever the enables, the link's state and the stall watch. -/
def Obligations.PenFrameArrival : Prop :=
  ∀ (bs p : Bytes) (fr : PenFrame) (s : State), Quiet s → Carries bs kindPenFrame p → parsePen p = some fr →
    (((s.mode.mode = .sleep ∨ s.mode.mode = .waking ∨ s.mode.mode = .doze ∨ s.heading .sleep = true ∨
        s.heading .doze = true) ∨ s.panelLink.scanChange = true) →
      exec (.penFrame .panel bs) s = .next s.finish) ∧
    (¬ ((s.mode.mode = .sleep ∨ s.mode.mode = .waking ∨ s.mode.mode = .doze ∨ s.heading .sleep = true ∨
        s.heading .doze = true) ∨ s.panelLink.scanChange = true) →
      exec (.penFrame .panel bs) s = .next (State.finish { s with pen := { s.pen with
        slot := { frame := some fr,
                  tally := if s.pen.slot.frame = none then s.pen.slot.tally else min 255 (s.pen.slot.tally + 1) },
        overruns := if s.pen.slot.frame = none then s.pen.overruns else min 65535 (s.pen.overruns + 1) } }))

/-- SCAN_ACK (R8, R138): naming the commanded setting of a scan change in flight, it ends the scan change and stops the
settle timer, and toward FULL, REDUCED or WAKE_ON_TOUCH it brings an OFF link, and only an OFF link, UP; any other
SCAN_ACK, one of another length or with a code of 4 or more included, has no effect. WAKE (R145): taken in settled DOZE with
no SET_MODE in progress on a link whose surface is enabled, it raises WAKE and begins a transition toward ACTIVE, cause
WAKE, in which each link's desired setting is evaluated; else no effect. ID_REPLY (R2, R8, R140): with the link's query
outstanding it is accepted whatever its payload: the link is recorded REPLIED, and is UP, with LINK_BACK if it was STALLED;
with none outstanding no effect. -/
def Obligations.ModeEnginePackets : Prop :=
  (∀ (l : Surface) (bs p : Bytes) (s : State), Quiet s → Carries bs kindScanAck p →
     ((s.link l).scanChange = true → ackSetting p = some (s.link l).commanded →
       exec (.scanAck l bs) s = .next (State.finish (s.setLink l { s.link l with
         scanChange := false, settle := none,
         state := if (s.link l).state = .off ∧ ((s.link l).commanded = .full ∨ (s.link l).commanded = .reduced ∨
             (s.link l).commanded = .wakeOnTouch) then .up else (s.link l).state }))) ∧
     (((s.link l).scanChange = false ∨ ackSetting p ≠ some (s.link l).commanded) →
       exec (.scanAck l bs) s = .next s.finish) ∧
     ((p.length ≠ 1 ∨ 4 ≤ u8At p 0) → ackSetting p = none) ∧
     (p.length = 1 → (u8At p 0 = 0 → ackSetting p = some .off) ∧ (u8At p 0 = 1 → ackSetting p = some .full) ∧
       (u8At p 0 = 2 → ackSetting p = some .reduced) ∧ (u8At p 0 = 3 → ackSetting p = some .wakeOnTouch))) ∧
  (∀ (l : Surface) (bs p : Bytes) (s : State), Quiet s → Carries bs kindWake p →
     ((s.mode.mode = .doze ∧ s.mode.transition = none ∧ s.mode.setMode = none ∧ s.enabled l = true) →
       exec (.wake l bs) s = .next (State.finish (State.evaluateScans
         { s.raise (.wake l) with mode := { s.mode with
             mode := .active, transition := some { target := .active, phase := .scan, cause := .wake } } }))) ∧
     (¬ (s.mode.mode = .doze ∧ s.mode.transition = none ∧ s.mode.setMode = none ∧ s.enabled l = true) →
       exec (.wake l bs) s = .next s.finish)) ∧
  (∀ (l : Surface) (bs p : Bytes) (s : State), Quiet s → Carries bs kindIdReply p →
     ((s.link l).query ≠ none →
       exec (.idReply l bs) s = .next (State.finish
         { s.setLink l { s.link l with query := none, outcome := .replied, state := .up } with
           queue := if (s.link l).state = .stalled then s.queue.raise (.linkBack l) else s.queue })) ∧
     ((s.link l).query = none → exec (.idReply l bs) s = .next s.finish))

/-- PASS_UP (R12, R155): a well-framed packet of a kind the part does not consume, with at most 253 bytes of payload, enters
as a PASSUP record below 40 records; else it is dropped with PASS_DROP, reason QUEUE. In every mode and link state alike.
PASS_DOWN (R13): tested in order, a host packet of a reserved kind is dropped with reason RESERVED, one for a link not UP
with LINK_OFF, one that finds two packets waiting with FULL, each raising PASS_DROP alone; any other joins the buffer's
tail, from which an idle transmitter takes its choice (R16). -/
def Obligations.PassUpAndPassDown : Prop :=
  (∀ (l : Surface) (bs p : Bytes) (k : BitVec 6) (s : State), Quiet s → Carries bs k p → consumedKind k = false →
     p.length ≤ 253 →
     (s.queue.records.length < 40 →
       exec (.passUp l bs) s = .next (State.finish { s with queue := s.queue.enter (.passUp l k p) })) ∧
     (40 ≤ s.queue.records.length →
       exec (.passUp l bs) s = .next (s.raise (.passDrop l .queue)).finish)) ∧
  (∀ (l : Surface) (k : BitVec 6) (p : Bytes) (s : State), HostReady s →
     ((k = kindScanControl ∨ k = kindIdQuery) →
       exec (.passDown l k p) s = .next (s.raise (.passDrop l .reserved)).finish) ∧
     (k ≠ kindScanControl → k ≠ kindIdQuery → (s.link l).state ≠ .up →
       exec (.passDown l k p) s = .next (s.raise (.passDrop l .linkOff)).finish) ∧
     (k ≠ kindScanControl → k ≠ kindIdQuery → (s.link l).state = .up → 2 ≤ (s.link l).passDown.length →
       exec (.passDown l k p) s = .next (s.raise (.passDrop l .full)).finish) ∧
     (k ≠ kindScanControl → k ≠ kindIdQuery → (s.link l).state = .up → (s.link l).passDown.length < 2 →
       exec (.passDown l k p) s = .next (State.finish (s.setLink l (Link.arbitrate
         { s.link l with passDown := (s.link l).passDown ++ [({ kind := k, payload := p } : HostPacket)] })))))

/-- PASS_UP with a payload of 254 or 255 bytes raises PASS_DROP with reason LENGTH and is not offered; one of 253 or fewer is
passed up. The events' kind codes, which are the bits of the report mask, and their details are R177's table (R177). -/
def Obligations.PassUpTooLongAndEventCodes : Prop :=
  (∀ (l : Surface) (bs p : Bytes) (k : BitVec 6) (s : State), Quiet s → Carries bs k p → consumedKind k = false →
    (253 < p.length → exec (.passUp l bs) s = .next (s.raise (.passDrop l .length)).finish) ∧
    (p.length ≤ 253 → exec (.passUp l bs) s = .next (s.offerPassUp l k p).finish)) ∧
  (∀ (q : ReportQueue) (e : Event) (code : Byte), (Record.payload (.event e)).head? = some code →
    q.reports e = q.reportMask.getLsbD code.toNat) ∧
  (∀ (link : Surface → Nat) (table : Table → Nat) (sent : Event → Bytes),
    link .pad = 1 → link .panel = 2 →
    table .posture = 0 → table .zone = 1 → table .cls = 2 → table .gesture = 3 → table .pen = 4 →
    (∀ e, sent e = Record.payload (.event e)) →
    (∀ serial, sent (.penEnter serial) = putU8 0 ++ putU32 serial.toNat ∧
      sent (.penConflict serial) = putU8 2 ++ putU32 serial.toNat) ∧
    (∀ serial c n, (c, n) ∈ [(LeaveCause.range, 0), (LeaveCause.disabled, 1), (LeaveCause.dropped, 2)] →
      sent (.penLeave serial c) = putU8 1 ++ putU32 serial.toNat ++ putU8 n) ∧
    (∀ m c n k,
      (m, n) ∈ [(Mode.sleep, 0), (Mode.waking, 1), (Mode.active, 2), (Mode.idle, 3), (Mode.doze, 4)] →
      (c, k) ∈ [(Cause.command, 0), (Cause.auto, 1), (Cause.wake, 2)] →
      sent (.modeChanged m c) = putU8 3 ++ putU8 n ++ putU8 k) ∧
    (∀ l, sent (.wake l) = putU8 4 ++ putU8 (link l) ∧ sent (.linkBack l) = putU8 7 ++ putU8 (link l)) ∧
    (∀ a b count toggle n k,
      (a, n) ∈ [(WakeOutcome.replied, 0), (WakeOutcome.noReply, 1), (WakeOutcome.notQueried, 2)] →
      (b, k) ∈ [(WakeOutcome.replied, 0), (WakeOutcome.noReply, 1), (WakeOutcome.notQueried, 2)] →
      sent (.diag a b count toggle) =
        putU8 5 ++ putU8 n ++ putU8 k ++ putU16 count ++ putU8 (if toggle = true then 1 else 0)) ∧
    (∀ l c n, (c, n) ∈ [(StallCause.silence, 0), (StallCause.noAck, 1), (StallCause.noReply, 2)] →
      sent (.linkStall l c) = putU8 6 ++ putU8 (link l) ++ putU8 n) ∧
    (∀ f discards, sent (.trackExhaust f discards) = putU8 8 ++ putU8 (surfaceCode f) ++ putU8 discards) ∧
    (∀ f tally n, (f, n) ∈ [(FrameStream.padSense, 0), (FrameStream.panelSense, 1), (FrameStream.pen, 2)] →
      sent (.frameOverrun f tally) = putU8 9 ++ putU8 n ++ putU8 tally) ∧
    (∀ t bank row n, (bank, n) ∈ [(Bank.a, 0), (Bank.b, 1)] →
      sent (.tableFault t bank row) = putU8 10 ++ putU8 (table t) ++ putU8 n ++ putU8 row) ∧
    (∀ t cursor written, sent (.loadTimeout t cursor written) =
      putU8 11 ++ putU8 (table t) ++ putU8 cursor ++ putU8 written) ∧
    (∀ l r n, (r, n) ∈ [(DropReason.reserved, 0), (DropReason.linkOff, 1), (DropReason.full, 2), (DropReason.queue, 3),
        (DropReason.length, 4)] →
      sent (.passDrop l r) = putU8 12 ++ putU8 (link l) ++ putU8 n) ∧
    (∀ r n k, (r, n, k) ∈ [(LinkErrorReason.short k, 0, k), (LinkErrorReason.crc, 1, 0), (LinkErrorReason.badFirst, 2, 0),
        (LinkErrorReason.channel, 3, 0)] →
      sent (.linkError r) = putU8 13 ++ putU8 n ++ putU16 k))

/-- The entry of a link into STALLED (R10), in its order: LINK_STALL with the cause and, for each packet of the pass-down
buffer, PASS_DROP with reason LINK_OFF (R14); the link's waiting slots and pass-down buffer empty and its stall watch
stopped; a forced end requested on its surface, and on the panel a drop of the pen. A STALLED link stays as it is.
STALL_WATCH_EXPIRY, IDENTITY_REPLY_TIMEOUT and SCAN_SETTLE_TIMEOUT (R8, R9, R10, R138, R140): a running watch that runs out
stalls the link, cause SILENCE; an outstanding query ends with outcome NO_REPLY, a running settle timer ends the scan
change, and each stalls the link, cause NO_REPLY or NO_ACK, unless a transition toward SLEEP is in flight. A timer that does
not run does not run out (log entry 2). -/
def Obligations.LinkStallsAndTimeouts : Prop :=
  (∀ (s : State) (cause : StallCause),
     (∀ l : Surface, (s.link l).state = .stalled → s.enterStalled l cause = s) ∧
     (s.padLink.state ≠ .stalled →
       s.enterStalled .pad cause = State.requestForcedEnd
         { s with
           padLink := { s.padLink with state := .stalled, watch := none, passDown := [] },
           queue := (s.queue.raise (.linkStall .pad cause)).raiseAll
             (s.padLink.passDown.map (fun _ => .passDrop .pad .linkOff)),
           pad := { s.pad with slot := { frame := none, tally := 0 } } } .pad) ∧
     (s.panelLink.state ≠ .stalled →
       s.enterStalled .panel cause = State.requestDrop (State.requestForcedEnd
         { s with
           panelLink := { s.panelLink with state := .stalled, watch := none, passDown := [] },
           queue := (s.queue.raise (.linkStall .panel cause)).raiseAll
             (s.panelLink.passDown.map (fun _ => .passDrop .panel .linkOff)),
           panel := { s.panel with slot := { frame := none, tally := 0 } },
           pen := { s.pen with slot := { frame := none, tally := 0 } } } .panel))) ∧
  (∀ (l : Surface) (s : State), Quiet s →
     ((s.link l).watch ≠ none →
       exec (.stallWatchExpiry l) s = .next (s.enterStalled l .silence).finish) ∧
     ((s.link l).watch = none → exec (.stallWatchExpiry l) s = .next s.finish) ∧
     ((s.link l).query ≠ none → s.heading .sleep = false →
       exec (.identityReplyTimeout l) s = .next (State.finish (State.enterStalled
         (s.setLink l { s.link l with query := none, outcome := .noReply }) l .noReply))) ∧
     ((s.link l).query ≠ none → s.heading .sleep = true →
       exec (.identityReplyTimeout l) s = .next (State.finish
         (s.setLink l { s.link l with query := none, outcome := .noReply }))) ∧
     ((s.link l).query = none → exec (.identityReplyTimeout l) s = .next s.finish) ∧
     ((s.link l).settle ≠ none → s.heading .sleep = false →
       exec (.scanSettleTimeout l) s = .next (State.finish (State.enterStalled
         (s.setLink l { s.link l with scanChange := false, settle := none }) l .noAck))) ∧
     ((s.link l).settle ≠ none → s.heading .sleep = true →
       exec (.scanSettleTimeout l) s = .next (State.finish
         (s.setLink l { s.link l with scanChange := false, settle := none }))) ∧
     ((s.link l).settle = none → exec (.scanSettleTimeout l) s = .next s.finish))

/-- The Downlink Arbiter (R15, R16): an idle transmitter takes the head of the part-originated queue, else the head of the
pass-down buffer; a packet the Mode Engine originates replaces the waiting one of its kind in its place, else joins at the
tail; a busy transmitter is left alone. TRANSMISSION_COMPLETE (R15, R16, R138, R140): an ID_QUERY starts its link's 20 ms
query, the SCAN_CONTROL of a scan change with no newer one waiting starts the 20 ms settle timer, a host packet and an older
SCAN_CONTROL start nothing; then the arbiter chooses, unless the completion lets a SOFT_RESET take effect (R149; log entry
9). Which of two SCAN_CONTROL packets of one setting starts the settle timer is log entry 11, and that a completion with
nothing being sent has no effect is log entry 2, both the model's choice. -/
def Obligations.ArbiterAndTransmissions : Prop :=
  (∀ l : Link,
     (l.sending ≠ none → l.arbitrate = l) ∧
     (∀ p rest, l.sending = none → l.partQueue = p :: rest →
       l.arbitrate = { l with partQueue := rest, sending := some (.part p) }) ∧
     (∀ p rest, l.sending = none → l.partQueue = [] → l.passDown = p :: rest →
       l.arbitrate = { l with passDown := rest, sending := some (.host p) }) ∧
     (l.sending = none → l.partQueue = [] → l.passDown = [] → l.arbitrate = l) ∧
     (∀ v, l.originate (.scanControl v) = Link.arbitrate { l with
       partQueue := if ∀ q ∈ l.partQueue, q = PartPacket.idQuery then l.partQueue ++ [PartPacket.scanControl v]
         else l.partQueue.map (fun q => if q = PartPacket.idQuery then q else PartPacket.scanControl v) }) ∧
     l.originate .idQuery = Link.arbitrate { l with
       partQueue := if PartPacket.idQuery ∈ l.partQueue then l.partQueue else l.partQueue ++ [PartPacket.idQuery] }) ∧
  (∀ (l : Surface) (s : State), Quiet s →
     ((s.link l).sending = none → exec (.transmissionComplete l) s = .next s.finish) ∧
     (∀ x, (s.link l).sending = some x →
       ∃ y : Link,
         (∀ p, x = .host p → y = { s.link l with sending := none }) ∧
         (x = .part .idQuery → y = { s.link l with sending := none, query := some 20 }) ∧
         (∀ v, x = .part (.scanControl v) →
           y = if (s.link l).scanChange = true ∧ v = (s.link l).commanded ∧
                   ∀ q ∈ (s.link l).partQueue, q = PartPacket.idQuery
               then { s.link l with sending := none, settle := some 20 }
               else { s.link l with sending := none }) ∧
         ((s.setLink l y).softResetDue = false →
           exec (.transmissionComplete l) s = .next (State.finish (s.setLink l y.arbitrate))) ∧
         ((s.setLink l y).softResetDue = true →
           exec (.transmissionComplete l) s = .next (State.finish (s.setLink l y)))))

/-! ## The Track Table and the Palm Filter -/

/-- SENSE_FRAME_TAKE (R6, R21, R22, R90, R107). An idle operation with a waiting frame, no commit pending and no forced end
pending takes it: the slot and its tally are empty, one more frame hold, the snapshot holds the posture select, the gather
window, the profile, the pen guard, the typing guard and the two changed counts, stage 2 has matched the frame's
candidates, and the panel's remembered counts are those of the guard. The POSTURE row and the CLASS row it names have been
read, and the row read is evaluated for the enables (R41, R43). -/
def Obligations.SenseFrameTake : Prop :=
  ∀ (f : Surface) (fr : SenseFrame) (s : State), s.inReset = false → (s.unit f).op = none →
    (s.unit f).slot.frame = some fr → s.store.commit = none → (s.unit f).forcedPending = false →
    ∃ (reads : State) (profile : Profile) (unit : SurfaceUnit) (slots : List (Option Track)) (left : List Candidate),
      reads = s.readPosture.readActive .cls (s.postureRow.profileIndex f) ∧
      profile = profileOf (s.readPosture.activeBytes .cls (s.postureRow.profileIndex f)) ∧
      (slots, left) = matchSlots f (profile.matchRadius * profile.matchRadius) s.tracks.slots fr.candidates ∧
      unit = { s.unit f with
        slot := { frame := none, tally := 0 }, lastTime := fr.time,
        op := some
          { frame := fr, tally := (s.unit f).slot.tally, posture := s.command.select, gather := s.postureRow.gather f,
            profile := profile, guard := s.pen.guard, typing := s.palm.typing.isSome,
            retroDue := decide (f = .panel ∧ s.pen.guard.activation ≠ s.palm.activation),
            inkDue := decide (f = .panel ∧ s.pen.guard.ink ≠ s.gesture.ink), waiting := left, discards := 0 } } ∧
      exec (.senseFrameTake f) s = .next (State.finish (State.evaluateEnables
        { reads.setUnit f unit with
          tracks := { s.tracks with slots := slots },
          store := { reads.store with holds := reads.store.holds + 1 },
          palm := { s.palm with activation := if f = .panel then s.pen.guard.activation else s.palm.activation },
          gesture := { s.gesture with ink := if f = .panel then s.pen.guard.ink else s.gesture.ink } }
        s.postureRow.enables))

/-- Matching (R22, R23). The candidate taken is within reach, at the smallest squared distance, and of those at that
distance the first; none is taken when none is within reach. The surface's tracks choose in slot order, each from the
candidates the earlier ones left; a matched track takes the candidate's values, missed count 0 and one more matched, an
unmatched one misses one more and keeps its place, and either is one frame older, each count up to 255. -/
def Obligations.Matching : Prop :=
  (∀ (x y reach : Nat) (cs : List Candidate),
    (∀ i d, nearest x y reach cs = some (i, d) → ∃ c, cs[i]? = some c ∧ d = sqDist x y c.x c.y ∧ d ≤ reach ∧
      ∀ j c', cs[j]? = some c' → sqDist x y c'.x c'.y ≤ reach →
        d ≤ sqDist x y c'.x c'.y ∧ (sqDist x y c'.x c'.y = d → i ≤ j)) ∧
    (nearest x y reach cs = none → ∀ c ∈ cs, reach < sqDist x y c.x c.y)) ∧
  (∀ (f : Surface) (reach : Nat) (cs : List Candidate) (o : Option Track) (rest : List (Option Track)),
    matchSlots f reach [] cs = ([], cs) ∧
    ((∀ t, o = some t → t.surface ≠ f) →
      matchSlots f reach (o :: rest) cs = (o :: (matchSlots f reach rest cs).1, (matchSlots f reach rest cs).2)) ∧
    (∀ t, o = some t → t.surface = f → nearest t.x t.y reach cs = none →
      matchSlots f reach (o :: rest) cs =
        (some { t with missed := min 255 (t.missed + 1), age := min 255 (t.age + 1) } :: (matchSlots f reach rest cs).1,
          (matchSlots f reach rest cs).2)) ∧
    (∀ t i d c, o = some t → t.surface = f → nearest t.x t.y reach cs = some (i, d) → cs[i]? = some c →
      matchSlots f reach (o :: rest) cs =
        (some { t with x := c.x, y := c.y, area := c.area, major := c.major, missed := 0,
                       matched := min 255 (t.matched + 1), age := min 255 (t.age + 1), matchedNow := true } ::
            (matchSlots f reach rest (cs.eraseIdx i)).1,
          (matchSlots f reach rest (cs.eraseIdx i)).2)))

/-- Contact ids (R24): from the pointer on, in the order 1 to 255 and back to 1, the id taken is the first that no occupied
slot of either surface holds, and with 20 slots one of 21 tries finds it. SLOT_REQUEST (R24 to R27, R52). Of two operations
waiting the one not served last is answered, of one waiting that one. A FREE slot is granted, the lowest: after the zone
lookup under the snapshot's posture a track is born there, with the candidate's values, the id the pointer gives, and the
state of its classification. With no FREE slot the candidate is discarded and counted. Either answer takes the candidate
from the frame's waiting ones and records the surface served. That the row names the surfaces whose requests it speaks of, and
has no effect where none of them waits, is the model's choice, log entries 19 and 2. -/
def Obligations.ContactIdsAndSlotRequest : Prop :=
  (∀ (slots : List (Option Track)) (n : Nat), slots.length = 20 → 1 ≤ n → n ≤ 255 →
     ∃ k ≤ 20, freshId slots 21 n = (n - 1 + k) % 255 + 1 ∧
       (∀ t, some t ∈ slots → t.id ≠ freshId slots 21 n) ∧
       ∀ j < k, ∃ t, some t ∈ slots ∧ t.id = (n - 1 + j) % 255 + 1) ∧
  ((∀ (s : State) (who : Requesters) (f : Surface), s.served who = some f ↔
     namesSurface who f = true ∧ s.requesting f = true ∧
       (namesSurface who (otherSurface f) = true → s.requesting (otherSurface f) = true → s.tracks.lastServed ≠ f)) ∧
   (∀ (who : Requesters) (f : Surface) (op : SenseOp) (c : Candidate) (rest : List Candidate) (s : State), Quiet s →
     s.served who = some f → (s.unit f).op = some op → op.waiting = c :: rest →
     (∀ i, s.tracks.slots[i]? = some none → (∀ j < i, s.tracks.slots[j]? ≠ some none) →
       ∃ (zone : ZoneKind) (reason : Option HeldReason) (st : TrackState) (id : Nat),
         zone = s.lookup f c.x c.y op.posture ∧
         reason = classify f op zone s.tracks.slots c ∧
         (∀ r, reason = some r → st = .held r) ∧
         (reason = none → st = if op.profile.confirm = 0 then .live else .tentative) ∧
         id = freshId s.tracks.slots 21 s.tracks.nextId ∧
         exec (.slotRequest who) s = .next (State.finish
           { (s.afterLookup op.posture).setUnit f { s.unit f with op := some { op with waiting := rest } } with
             tracks :=
               { slots := s.tracks.slots.set i (some
                   { surface := f, id := id, state := st, x := c.x, y := c.y, area := c.area, major := c.major,
                     age := 0, matched := 1, missed := 0, birthZone := zone, lastX := c.x, lastY := c.y, member := false,
                     matchedNow := true, bornNow := true, due := if st = .live then [.down] else [], endMark := false }),
                 nextId := if id = 255 then 1 else id + 1,
                 lastServed := f } })) ∧
     ((∀ o ∈ s.tracks.slots, o ≠ none) →
       exec (.slotRequest who) s = .next (State.finish
         { s.setUnit f { s.unit f with
             op := some { op with waiting := rest, discards := op.discards + 1 },
             discards := min 65535 ((s.unit f).discards + 1) } with
           tracks := { s.tracks with lastServed := f } }))) ∧
   (∀ (who : Requesters) (s : State), Quiet s → s.served who = none → exec (.slotRequest who) s = .next s.finish))

/-- The palm test (R76): it fails when the area reaches the area threshold, the guard area for a GUARD birth zone and the
palm area for every other, or the major reaches the palm length; a threshold of 0 makes every track fail, and one of 255
fails only a value of 255. Stage 4 applies it to a track's area, major and birth zone kind with the snapshot's profile, and
a new track that fails it is HELD as PALM unless an earlier step of R78 holds it. -/
def Obligations.PalmTest : Prop :=
  (∀ (p : Profile) (zone : ZoneKind) (area major : Nat),
    palmFails p zone area major = true ↔
      (zone = .guard ∧ p.guardArea ≤ area) ∨ (zone ≠ .guard ∧ p.palmArea ≤ area) ∨ p.palmLength ≤ major) ∧
  (∀ (p : Profile) (zone : ZoneKind) (area major : Nat), p.palmLength = 0 ∨ (zone ≠ .guard ∧ p.palmArea = 0) ∨
      (zone = .guard ∧ p.guardArea = 0) → palmFails p zone area major = true) ∧
  (∀ (p : Profile) (zone : ZoneKind) (area major : Nat), area ≤ 255 → major ≤ 255 → p.palmLength = 255 →
      (if zone = .guard then p.guardArea else p.palmArea) = 255 →
      (palmFails p zone area major = true ↔ area = 255 ∨ major = 255)) ∧
  (∀ (p : Profile) (t : Track), t.ongoing p =
    if (t.state = .tentative ∨ t.state = .live) ∧ t.bornNow = false ∧ palmFails p t.birthZone t.area t.major = true then
      t.hold .palm
    else t) ∧
  (∀ (f : Surface) (op : SenseOp) (zone : ZoneKind) (slots : List (Option Track)) (c : Candidate),
    zone ≠ .block → ¬ (f = .panel ∧ zone ≠ .pass ∧ op.guard.covers c.x c.y = true) →
    ¬ (f = .pad ∧ zone ≠ .pass ∧ op.typing = true) → palmFails op.profile zone c.area c.major = true →
    classify f op zone slots c = some .palm)

/-- Birth classification (R78): the first of the five steps that applies gives the reason; none leaves the track
TENTATIVE. A guard contains its edges, an inactive one no point (R67); a source of the neighbour test is a track of the
surface HELD as PALM or NEAR_PALM within the radius (R83). -/
def Obligations.BirthClassification : Prop :=
  ∀ (f : Surface) (op : SenseOp) (zone : ZoneKind) (slots : List (Option Track)) (c : Candidate),
    classify f op zone slots c =
      (if zone = .block then some .zone
       else if f = .panel ∧ zone ≠ .pass ∧ op.guard.active = true ∧ op.guard.xMin ≤ c.x ∧ c.x ≤ op.guard.xMax ∧
           op.guard.yMin ≤ c.y ∧ c.y ≤ op.guard.yMax then some .penGuard
       else if f = .pad ∧ zone ≠ .pass ∧ op.typing = true then some .typing
       else if palmFails op.profile zone c.area c.major = true then some .palm
       else if nearPalm f op.profile.neighbour c.x c.y slots = true then some .nearPalm
       else none) ∧
    (nearPalm f op.profile.neighbour c.x c.y slots = true ↔
      ∃ t, some t ∈ slots ∧ t.surface = f ∧ (t.state = .held .palm ∨ t.state = .held .nearPalm) ∧
        sqDist c.x c.y t.x t.y ≤ op.profile.neighbour * op.profile.neighbour)

/-- Stages 4 to 6 and 9 for one track (R28 to R31, R85, R91). Retro-cancel and the ongoing palm test hold a track, with
CANCEL due if it was a LIVE panel track. A TENTATIVE track whose matched count reaches the confirm count becomes LIVE with
DOWN due. One whose missed count reaches the miss limit ends: LIVE with UP due, TENTATIVE matched twice with DOWN and UP
due as LIVE, any other silently. The release frees the ended ones of the surface and clears the marks of the others. -/
def Obligations.TrackStages : Prop :=
  (∀ (t : Track) (r : HeldReason), t.hold r =
    { t with state := .held r,
             due := if t.state = .live ∧ t.surface = .panel then t.due ++ [Phase.cancel] else t.due }) ∧
  (∀ (op : SenseOp) (t : Track), t.retro op =
    if (t.state = .tentative ∨ t.state = .live) ∧ op.guard.covers t.x t.y = true ∧ t.birthZone ≠ .pass ∧
        t.age ≤ op.guard.retroWindow then t.hold .penGuard else t) ∧
  (∀ (p : Profile) (t : Track), t.confirm p =
    if t.state = .tentative ∧ p.confirm ≤ t.matched then { t with state := .live, due := t.due ++ [Phase.down] }
    else t) ∧
  (∀ (p : Profile) (t : Track),
    (t.missed < p.missLimit → t.ends p = t) ∧
    (p.missLimit ≤ t.missed → t.state = .live → t.ends p = { t with endMark := true, due := t.due ++ [Phase.up] }) ∧
    (p.missLimit ≤ t.missed → t.state = .tentative → 2 ≤ t.matched →
      t.ends p = { t with endMark := true, state := .live, due := t.due ++ [Phase.down, Phase.up] }) ∧
    (p.missLimit ≤ t.missed → t.state = .tentative → t.matched < 2 → t.ends p = { t with endMark := true }) ∧
    (∀ r, p.missLimit ≤ t.missed → t.state = .held r → t.ends p = { t with endMark := true })) ∧
  (∀ (f : Surface) (t : Track),
    (t.surface = f → t.endMark = true → releaseSlot f (some t) = none) ∧
    (t.surface = f → t.endMark = false →
      releaseSlot f (some t) = some { t with matchedNow := false, bornNow := false, due := [], endMark := false }) ∧
    (t.surface ≠ f → releaseSlot f (some t) = some t) ∧ releaseSlot f none = none) ∧
  (∀ (f : Surface) (op : SenseOp) (slots : List (Option Track)), stagesFourToSix f op slots =
    slots.map (Option.map (fun t => if t.surface = f then
      Track.ends op.profile (Track.confirm op.profile (Track.ongoing op.profile
        (if f = .panel ∧ op.retroDue = true then t.retro op else t))) else t)))

/-- The entries of a panel frame (R32): by ascending contact id, one for each phase due in its order, or one MOVE for a
LIVE track with none due away from its last reported position; the last reported position becomes the position of a DOWN or
MOVE entry, and stays otherwise; cut in order into records of the frame's time with at most 20 entries, every record but
the last with 20; no entry, no record. -/
def Obligations.ContactEntries : Prop :=
  (∀ t : Track, t.entries =
    if t.state = .live ∧ t.due = [] ∧ (t.x ≠ t.lastX ∨ t.y ≠ t.lastY) then
      [{ id := t.id, phase := .move, x := t.x, y := t.y, area := t.area }]
    else t.due.map (fun ph => { id := t.id, phase := ph, x := t.x, y := t.y, area := t.area })) ∧
  (∀ t : Track,
    (((t.state = .live ∧ t.due = [] ∧ (t.x ≠ t.lastX ∨ t.y ≠ t.lastY)) ∨ Phase.down ∈ t.due) →
      t.reported = { t with lastX := t.x, lastY := t.y }) ∧
    (¬ ((t.state = .live ∧ t.due = [] ∧ (t.x ≠ t.lastX ∨ t.y ≠ t.lastY)) ∨ Phase.down ∈ t.due) → t.reported = t)) ∧
  (∀ (slots : List (Option Track)) (g : Track → Track), onTracks .panel g slots =
    slots.map (Option.map (fun t => if t.surface = .panel then g t else t))) ∧
  (∀ slots : List (Option Track), ∃ ts : List Track, entryList slots = (ts.map Track.entries).flatten ∧
    ts.Pairwise (fun t u => t.id ≤ u.id) ∧
    ts.Perm (slots.filterMap (fun o => o.bind (fun t => if t.surface = .panel then some t else none)))) ∧
  (∀ (time : Half) (es : List Entry), ∃ parts : List (List Entry),
    contactFrames time es = parts.map (fun part => Record.contactFrame time part) ∧ parts.flatten = es ∧
      (∀ part ∈ parts, 1 ≤ part.length ∧ part.length ≤ 20) ∧ ∀ part ∈ parts.dropLast, part.length = 20)

/-- SENSE_FRAME_COMPLETION (R20, R31, R34, R35, R98). Once every request of the frame is answered: stages 4 to 6, the
gesture step, stage 8, then one offer group of the frame's own records, the gesture step's records, TRACK_EXHAUST in the
first frame of an episode, and FRAME_OVERRUN for a tally; then the release, and a candidate is reported to the Mode Engine.
Before that the row has no effect (log entry 2). -/
def Obligations.SenseFrameCompletion : Prop :=
  ∀ (f : Surface) (op : SenseOp) (s : State), Quiet s → (s.unit f).op = some op →
    (op.waiting ≠ [] → exec (.senseFrameCompletion f) s = .next s.finish) ∧
    (op.waiting = [] → ∃ (v w x t : State) (gestures own : List Record) (events : List Event),
      (v, gestures) = (s.setSlots (stagesFourToSix f op s.tracks.slots)).gestureStep f op.frame.time op.gather
        (newlyHeld s.tracks.slots (reclassify f op s.tracks.slots)) op.inkDue ∧
      (f = .panel → own = contactFrames op.frame.time (entryList v.tracks.slots) ∧
        w = { v with tracks := { v.tracks with slots := onTracks .panel Track.reported v.tracks.slots } }) ∧
      (f = .pad → ∃ (p : PointerRecord) (dx dy : Int),
        (p, dx, dy) = pointerStep v.gesture.pointer v.pad.context v.tracks.slots op.profile.gain ∧
        own = (if dx = 0 ∧ dy = 0 then [] else [Record.pointer dx dy v.gesture.button.buttons]) ∧
        w = { v with gesture := { v.gesture with pointer := p } }) ∧
      events = (if op.discards ≠ 0 ∧ (s.unit f).exhausted = false then [Event.trackExhaust f op.discards] else []) ++
        (if op.tally ≠ 0 then [Event.frameOverrun (senseStream f) op.tally] else []) ∧
      x = w.offer ((own ++ gestures).map (.data (surfaceStream f)) ++ events.map .event) ∧
      t = { x.setUnit f { x.unit f with op := none, exhausted := decide (op.discards ≠ 0) } with
        tracks := { x.tracks with slots := releaseSlots f x.tracks.slots },
        store := { x.store with holds := x.store.holds - 1 },
        gesture := { x.gesture with clickView :=
          match f with | .pad => clickPositions (releaseSlots f x.tracks.slots) | .panel => x.gesture.clickView } } ∧
      exec (.senseFrameCompletion f) s =
        .next (State.finish (if op.frame.candidates = [] then t else t.reportReturn)))

/-- FORCED_END (R36, R37, R47, R53). A request finds the operation idle and is taken at once, or waits for the frame in
progress. Taken, it offers, on the panel, the CANCEL entries of its LIVE tracks in ascending contact id under the last frame time, then the CANCEL
record of an ACTIVE context, then R47's release of the pad's button; every slot of the surface is FREE, its context CLOSED,
and on the pad nothing is followed and the click view is empty. The row takes a pending one at an idle operation. -/
def Obligations.ForcedEnds : Prop :=
  (∀ (f : Surface) (s : State),
    ((s.unit f).op ≠ none → s.requestForcedEnd f = s.setUnit f { s.unit f with forcedPending := true }) ∧
    ((s.unit f).op = none → s.requestForcedEnd f = s.takeForcedEnd f) ∧
    (s.inReset = false → (s.unit f).op = none → (s.unit f).forcedPending = true →
      exec (.forcedEnd f) s = .next (s.takeForcedEnd f).finish)) ∧
  (∀ s : State, s.takeForcedEnd .panel = State.offer
    { s with
      panel := { s.panel with context := Context.closed, forcedPending := false },
      tracks := { s.tracks with slots := freeSurface .panel s.tracks.slots } }
    ((contactFrames s.panel.lastTime (cancelEntries s.tracks.slots) ++ s.panel.context.cancelRecords .panel).map
      (.data .panel))) ∧
  (∀ s : State, s.takeForcedEnd .pad = State.offer
    { s with
      pad := { s.pad with context := Context.closed, forcedPending := false },
      tracks := { s.tracks with slots := freeSurface .pad s.tracks.slots },
      gesture := { s.gesture with
        pointer := { s.gesture.pointer with followed := none, remX := 0, remY := 0 }, clickView := [],
        releaseOwed := false, button := if s.gesture.releaseOwed = true then .none else s.gesture.button } }
    ((s.pad.context.cancelRecords .pad ++
        (if s.gesture.releaseOwed = true ∧ s.gesture.button ≠ .none then
          [Record.pointer 0 0 { left := false, right := false, middle := false }] else [])).map (.data .pad))) ∧
  (∀ slots : List (Option Track), ∃ ts : List Track,
    cancelEntries slots = ts.map (fun t => { id := t.id, phase := .cancel, x := t.x, y := t.y, area := t.area }) ∧
    ts.Pairwise (fun t u => t.id ≤ u.id) ∧
    ts.Perm (slots.filterMap (fun o => o.bind (fun t =>
      if t.surface = .panel ∧ t.state = .live then some t else none)))) ∧
  (∀ (f : Surface) (c : Context),
    (∀ w, c.state = .active → c.winner = some w → c.cancelRecords f =
      [Record.gesture f w.rule.code .cancel w.rule.fingers (figure c.members).x (figure c.members).y c.progress]) ∧
    (c.state ≠ .active → c.cancelRecords f = [])) ∧
  (∀ (f : Surface) (slots : List (Option Track)) (t : Track),
    some t ∈ freeSurface f slots ↔ some t ∈ slots ∧ t.surface ≠ f)

/-- A track that is HELD stays HELD for its reason until its slot is freed: whatever single step is taken, a command with
nothing due before it or a step that is due, its slot afterwards is FREE or holds the same id HELD for the same reason
(R19, R28). -/
def Obligations.HeldIsFinal : Prop :=
  ∀ (s t : State) (i : Nat) (x : Track) (r : HeldReason), s.tracks.slots.length = 20 →
    s.tracks.slots[i]? = some (some x) → x.state = .held r →
    ((∃ c, (Quiet s ∨ s.inReset = true ∨ resetRow c = true) ∧ exec c s = .next t) ∨
      (∃ d, s.isDue d = true ∧ t = (s.perform d).finish)) →
    t.tracks.slots[i]? = some none ∨ ∃ y, t.tracks.slots[i]? = some (some y) ∧ y.id = x.id ∧ y.state = .held r

/-- Every step keeps the Track Table at 20 slots, its ids and its pointer in 1 to 255, and no contact id in two occupied
slots (R24, R25). -/
def Obligations.TrackTableKept : Prop :=
  ∀ s t : State, TracksInv s.tracks → step s = .next t → TracksInv t.tracks

/-! ## Gestures and the pointer -/

/-- The tests of the gesture kinds (R101, R104, R106). The centroid is the sum of the members' last positions over their
number, the spread the mean of their distances to it, each a square root rounded down. A rule is satisfied as R104's table
says, the displacement being the centroid's from the anchor's, and its progress is what R106's table says; a TAP needs
no anchor (R102). -/
def Obligations.GestureRuleTests : Prop :=
  (∀ n : Nat, isqrt n * isqrt n ≤ n ∧ n < (isqrt n + 1) * (isqrt n + 1)) ∧
  (∀ ms : List Member, ms ≠ [] → ∃ cx cy, cx = (ms.map Member.lastX).sum / ms.length ∧
    cy = (ms.map Member.lastY).sum / ms.length ∧
    figure ms = {
      x := cx, y := cy,
      spread := (ms.map (fun m => isqrt (absDiff m.lastX cx * absDiff m.lastX cx + absDiff m.lastY cy * absDiff m.lastY cy))).sum /
        ms.length }) ∧
  (∀ (r : GestureRule) (c : Context) (a g : Anchor) (dx dy : Int) (timely still ended down : Prop),
    (c.anchor = some a ∨ (c.anchor = none ∧ r.kind = some .tap)) → g = figure c.members → dx = (g.x : Int) - a.x → dy = (g.y : Int) - a.y →
    (timely ↔ c.elapsed ≤ r.timeMax * 100 ∨ r.timeMax = 0) →
    (still ↔ ∀ m ∈ c.members, m.excursion < r.distance * r.distance) →
    (ended ↔ ∀ m ∈ c.members, m.ended = true) → (down ↔ ∀ m ∈ c.members, m.ended = false) →
    (r.kind = some .swipeLeft → (r.satisfied c = true ↔ dx.natAbs ≥ dy.natAbs ∧ -dx ≥ r.distance ∧ timely) ∧
      r.progress c = -dx) ∧
    (r.kind = some .swipeRight → (r.satisfied c = true ↔ dx.natAbs ≥ dy.natAbs ∧ dx ≥ r.distance ∧ timely) ∧
      r.progress c = dx) ∧
    (r.kind = some .swipeUp → (r.satisfied c = true ↔ dy.natAbs > dx.natAbs ∧ -dy ≥ r.distance ∧ timely) ∧
      r.progress c = -dy) ∧
    (r.kind = some .swipeDown → (r.satisfied c = true ↔ dy.natAbs > dx.natAbs ∧ dy ≥ r.distance ∧ timely) ∧
      r.progress c = dy) ∧
    (r.kind = some .pinchIn → (r.satisfied c = true ↔ (a.spread : Int) - g.spread ≥ r.distance) ∧
      r.progress c = ((min 32767 (g.spread * 256 / (if a.spread = 0 then 1 else a.spread)) : Nat) : Int)) ∧
    (r.kind = some .pinchOut → (r.satisfied c = true ↔ (g.spread : Int) - a.spread ≥ r.distance) ∧
      r.progress c = ((min 32767 (g.spread * 256 / (if a.spread = 0 then 1 else a.spread)) : Nat) : Int)) ∧
    (r.kind = some .hold → (r.satisfied c = true ↔ down ∧ c.elapsed ≥ r.timeMin * 100 ∧ still) ∧
      r.progress c = ((c.elapsed / 10 : Nat) : Int)) ∧
    (r.kind = some .tap → (r.satisfied c = true ↔ ended ∧ timely ∧ still) ∧
      r.progress c = ((c.elapsed / 10 : Nat) : Int)))

/-- The clock, the members and the end of a context (R99, R100, R109). Step 1 adds the time since last seen, modulo 65536
and up to 65535, follows each remaining member and marks one whose track ends; an ended member stays. A context takes a
joiner when CLOSED, which opens it, or when GATHERING with fewer than 5 members. Step 7 closes a context with no remaining
member; with no stray it stays closed, and with strays it opens again in GATHERING with at most 5 of them in ascending slot
number, last seen at the frame time. -/
def Obligations.GestureClockAndMembers : Prop :=
  (∀ (c : Context) (time : Half) (slots : List (Option Track)),
    (c.state = .closed → c.tick time slots = c) ∧
    (c.state ≠ .closed → c.tick time slots = { c with
      elapsed := min 65535 (c.elapsed + (time.toNat + (65536 - c.lastSeen.toNat)) % 65536), lastSeen := time,
      members := c.members.map (Member.tick slots) })) ∧
  (∀ (m : Member) (slots : List (Option Track)),
    (m.ended = true → m.tick slots = { m with endedNow := false }) ∧
    (∀ t, m.ended = false → slots[m.slot]? = some (some t) → m.tick slots = { m with
      lastX := t.x, lastY := t.y,
      excursion := max m.excursion (absDiff m.startX t.x * absDiff m.startX t.x + absDiff m.startY t.y * absDiff m.startY t.y),
      ended := t.endMark, endedNow := t.endMark })) ∧
  (∀ (c : Context) (time : Half) (i : Nat) (t : Track),
    (c.takes = true ↔ c.state = .closed ∨ (c.state = .gathering ∧ c.members.length < 5)) ∧
    (c.state = .closed → c.withMember time (t.joins i) =
      { state := .gathering, members := [({
          slot := i, startX := t.x, startY := t.y, lastX := t.x, lastY := t.y, excursion := 0,
          birthZone := t.birthZone, ended := t.endMark, endedNow := t.endMark } : Member)],
        lastSeen := time, elapsed := 0, anchor := none, candidates := [], recompute := false, winner := none, progress := 0 }) ∧
    (c.state ≠ .closed → c.withMember time (t.joins i) = { c with
      members := c.members ++ [({
          slot := i, startX := t.x, startY := t.y, lastX := t.x, lastY := t.y, excursion := 0,
          birthZone := t.birthZone, ended := t.endMark, endedNow := t.endMark } : Member)] })) ∧
  (∀ (s : State) (f : Surface) (time : Half),
    ((s.unit f).context.state = .closed ∨ (∃ m ∈ (s.unit f).context.members, m.ended = false) →
      s.gestureClose f time = s) ∧
    ((s.unit f).context.state ≠ .closed → (∀ m ∈ (s.unit f).context.members, m.ended = true) →
      (∀ t, some t ∈ s.tracks.slots → t.surface = f → t.state = .live → t.endMark = true ∨ t.member = true) →
      s.gestureClose f time = s.setContext f
        { state := .closed, members := [], lastSeen := 0#16, elapsed := 0, anchor := none, candidates := [],
          recompute := false, winner := none, progress := 0 }) ∧
    (∀ (strays : List (Nat × Track)) (c : Context), c = (s.unit f).context → c.state ≠ .closed →
      (∀ m ∈ c.members, m.ended = true) →
      strays = (List.range s.tracks.slots.length).filterMap (fun i => match s.tracks.slots[i]? with
        | some (some t) => if t.surface = f ∧ t.state = .live ∧ t.endMark = false ∧ t.member = false then some (i, t)
            else none
        | _ => none) →
      strays ≠ [] → ∃ slots : List (Option Track),
        (∀ i : Nat, slots[i]? = s.tracks.slots[i]?.map (fun o =>
          if i ∈ (strays.take 5).map Prod.fst then o.map (fun t => { t with member := true }) else o)) ∧
        s.gestureClose f time = (s.setContext f
          { state := .gathering, members := (strays.take 5).map (fun p => ({
                slot := p.1, startX := p.2.x, startY := p.2.y, lastX := p.2.x, lastY := p.2.y, excursion := 0,
                birthZone := p.2.birthZone, ended := false, endedNow := false } : Member)),
            lastSeen := time, elapsed := 0, anchor := none, candidates := [], recompute := false, winner := none,
            progress := 0 }).setSlots slots))

/-- Wins and cancellation (R105, R106, R107, R114). A win of another kind than TAP makes the context ACTIVE with the rule's
row and content and reports BEGIN; a TAP leaves the context and reports INSTANT, or on the pad with a button action the
press and release pair, unless the switch holds that button. Consume makes a LIVE track HELD, with CANCEL due on the panel
in place of an UP. A cancelled context is FINISHING without winner, candidates and anchor, and an ACTIVE one gives CANCEL.
In ACTIVE, fewer remaining members than the rule's fingers give END; else a changed progress gives UPDATE. That a context
cancelled for a held member or for ink does not read its winning row in that frame is the model's choice, log entry 24. -/
def Obligations.GestureWinsAndCancels : Prop :=
  (∀ (s : State) (f : Surface) (row : Nat) (r : GestureRule) (c : Context), c = (s.unit f).context →
    (∀ i : Nat, (s.win f row r).1.tracks.slots[i]? = s.tracks.slots[i]?.map (fun o =>
      if r.consume = true ∧ (∃ m ∈ c.members, m.slot = i ∧ (m.ended = false ∨ m.endedNow = true)) then o.map Track.consume
      else o)) ∧
    (s.win f row r).1 = (s.setContext f ((s.win f row r).1.unit f).context).setSlots (s.win f row r).1.tracks.slots ∧
    (r.kind ≠ some .tap →
      ((s.win f row r).1.unit f).context = { c with
        state := .active, candidates := [], winner := some { row := row, rule := r },
        progress := r.progress c } ∧
      (s.win f row r).2 = [Record.gesture f r.code .begin r.fingers (figure c.members).x (figure c.members).y (r.progress c)]) ∧
    (r.kind = some .tap → ((s.win f row r).1.unit f).context = c ∧
      ((f = .panel ∨ r.action = .report) → (s.win f row r).2 =
        [Record.gesture f r.code .instant r.fingers (figure c.members).x (figure c.members).y ((c.elapsed / 10 : Nat) : Int)]) ∧
      (f = .pad → r.action = .left → (s.win f row r).2 = if s.gesture.button = .left then [] else
        [Record.pointer 0 0 { left := true, right := decide (s.gesture.button = .right), middle := false },
         Record.pointer 0 0 { left := false, right := decide (s.gesture.button = .right), middle := false }]) ∧
      (f = .pad → r.action = .right → (s.win f row r).2 = if s.gesture.button = .right then [] else
        [Record.pointer 0 0 { left := decide (s.gesture.button = .left), right := true, middle := false },
         Record.pointer 0 0 { left := decide (s.gesture.button = .left), right := false, middle := false }]) ∧
      (f = .pad → r.action = .middle → (s.win f row r).2 =
        [Record.pointer 0 0 { left := decide (s.gesture.button = .left), right := decide (s.gesture.button = .right), middle := true },
         Record.pointer 0 0 { left := decide (s.gesture.button = .left), right := decide (s.gesture.button = .right),
                              middle := false }]))) ∧
  (∀ t : Track,
    (t.state ≠ .live → t.consume = t) ∧
    (t.state = .live → t.surface = .pad → t.consume = { t with state := .held .gesture }) ∧
    (t.state = .live → t.surface = .panel → Phase.up ∉ t.due →
      t.consume = { t with state := .held .gesture, due := t.due ++ [Phase.cancel] }) ∧
    (t.state = .live → t.surface = .panel → Phase.up ∈ t.due → t.consume = { t with
      state := .held .gesture, due := t.due.map (fun p => if p = Phase.up then Phase.cancel else p) })) ∧
  (∀ (s : State) (f : Surface) (c : Context), c = (s.unit f).context →
    s.cancelContext f = (s.setContext f { c with state := .finishing, winner := none, candidates := [], anchor := none },
      c.cancelRecords f) ∧
    (∀ held, c.lostMember held = true ↔
      (c.state = .gathering ∨ c.state = .candidate ∨ c.state = .active ∨ c.state = .passive) ∧
        ∃ m ∈ c.members, m.slot ∈ held ∧ (m.ended = false ∨ m.endedNow = true)) ∧
    (∀ held ink, c.lostMember held = true → s.gestureCancels f held ink = s.cancelContext f) ∧
    (∀ held, f = .panel → (c.state = .gathering ∨ c.state = .candidate ∨ c.state = .active) →
      s.gestureCancels f held true = s.cancelContext f) ∧
    (∀ held ink, c.lostMember held = false →
      (ink = false ∨ f = .pad ∨ (c.state ≠ .gathering ∧ c.state ≠ .candidate ∧ c.state ≠ .active)) →
      (c.state ≠ .active ∨ c.winner = none) → s.gestureCancels f held ink = (s, [])) ∧
    (∀ held ink w, c.lostMember held = false → (ink = false ∨ f = .pad) → c.state = .active → c.winner = some w →
      s.gestureCancels f held ink = if (s.rule w.row).inert = true then
          State.cancelContext (s.readActive .gesture w.row) f
        else (s.readActive .gesture w.row, []))) ∧
  (∀ (s : State) (f : Surface) (c : Context) (w : Winner), c = (s.unit f).context → c.winner = some w →
    ((c.members.filter (fun m => !m.ended)).length < w.rule.fingers → s.gestureProgress f =
      (s.setContext f { c with state := .finishing },
        [Record.gesture f w.rule.code .finish w.rule.fingers (figure c.members).x (figure c.members).y c.progress])) ∧
    (w.rule.fingers ≤ (c.members.filter (fun m => !m.ended)).length → w.rule.progress c = c.progress →
      s.gestureProgress f = (s, [])) ∧
    (w.rule.fingers ≤ (c.members.filter (fun m => !m.ended)).length → w.rule.progress c ≠ c.progress →
      s.gestureProgress f = (s.setContext f { c with progress := w.rule.progress c },
        [Record.gesture f w.rule.code .update w.rule.fingers (figure c.members).x (figure c.members).y (w.rule.progress c)])))

/-- The gesture step in its order (R98): the clock (R99), the cancellations due (R107), the joining of the tracks that became
LIVE in this frame in ascending slot number, up to five members (R100); then a context that is ACTIVE reports (R105), and any
other gathers and, in CANDIDATE, is evaluated; then the close (R109); the records in the order produced. The gathering closes
once its window has run, with the anchor and the rows selected, CANDIDATE or PASSIVE (R101); before that, when every member
has ended, the first selected and satisfied TAP row wins (R102). In CANDIDATE the set is made anew where a recompute is due;
of its rows still selected, read in order, the first satisfied wins, and with none those that can no longer be satisfied are
struck off; an empty set leaves PASSIVE (R103). A row is inert by its fields, its mark or an uncorrectable error, and an
inert row is never selected (R96, R101, R132). -/
def Obligations.GestureStepInOrder : Prop :=
  (∀ (s : State) (f : Surface) (time : Half) (gather : Nat) (held : List Nat) (ink : Bool),
    ∃ (a b c d e : State) (cancels gathers rest : List Record),
      a = s.setContext f ((s.unit f).context.tick time s.tracks.slots) ∧ (b, cancels) = a.gestureCancels f held ink ∧
      c = b.gestureJoins f time ∧
      ((c.unit f).context.state = .active → gathers = [] ∧ (e, rest) = c.gestureProgress f) ∧
      ((c.unit f).context.state ≠ .active →
        (d, gathers) = c.gestureGather f gather ∧ (e, rest) = d.gestureEvaluate f) ∧
      s.gestureStep f time gather held ink = (e.gestureClose f time, cancels ++ gathers ++ rest)) ∧
  (∀ (s : State) (f : Surface) (time : Half) (c : Context) (fresh joining : List (Nat × Track)),
    c = (s.unit f).context →
    fresh = (List.range s.tracks.slots.length).filterMap (fun i => match s.tracks.slots[i]? with
      | some (some t) => if t.surface = f ∧ t.state = .live ∧ Phase.down ∈ t.due then some (i, t) else none
      | _ => none) →
    joining = (if c.state = .closed then fresh.take 5 else if c.state = .gathering then fresh.take (5 - c.members.length)
      else []) →
    ∃ slots : List (Option Track),
      (∀ i : Nat, slots[i]? = s.tracks.slots[i]?.map (fun o =>
        if i ∈ joining.map Prod.fst then o.map (fun t => { t with member := true }) else o)) ∧
      (joining = [] → s.gestureJoins f time = s) ∧
      (joining ≠ [] → c.state = .closed → s.gestureJoins f time = (s.setContext f
        { state := .gathering, members := joining.map (fun p => Track.joins p.1 p.2), lastSeen := time, elapsed := 0,
          anchor := none, candidates := [], recompute := false, winner := none, progress := 0 }).setSlots slots) ∧
      (joining ≠ [] → c.state = .gathering → s.gestureJoins f time = (s.setContext f
        { c with members := c.members ++ joining.map (fun p => Track.joins p.1 p.2) }).setSlots slots)) ∧
  (∀ (s : State) (f : Surface) (c : Context) (rule : Nat → GestureRule) (fits taps : Nat → Bool) (all : State),
    c = (s.unit f).context →
    (∀ n row, row = s.store.row .gesture (s.store.active .gesture) n → rule n =
      ruleOf (if row.integrity = .uncorrectable ∨ row.inert = true then List.replicate 16 0x00#8 else row.bytes)) →
    (∀ n, fits n = true ↔ (rule n).enabled = true ∧ (rule n).kind ≠ none ∧ 1 ≤ (rule n).fingers ∧ (rule n).fingers ≤ 5 ∧
      (rule n).code ≠ 0 ∧ (rule n).surface = some f ∧ (rule n).fingers = c.members.length ∧
      ((rule n).edge = false ∨ ∀ m ∈ c.members, m.birthZone = .edge)) →
    (∀ n, taps n = true ↔ fits n = true ∧ (rule n).kind = some .tap ∧ (rule n).satisfied c = true) →
    all = State.afterReads .gesture (s.store.active .gesture) (List.range 32) s →
    (∀ gather : Nat,
      (c.state ≠ .gathering → s.gestureGather f gather = (s, [])) ∧
      (c.state = .gathering → c.elapsed < 10 * gather → (∃ m ∈ c.members, m.ended = false) →
        s.gestureGather f gather = (s, [])) ∧
      (c.state = .gathering → 10 * gather ≤ c.elapsed → s.gestureGather f gather =
        (all.setContext f
          { c with anchor := some (figure c.members), candidates := (List.range 32).filter fits, recompute := false,
                   state := if (List.range 32).filter fits = [] then .passive else .candidate }, [])) ∧
      (c.state = .gathering → c.elapsed < 10 * gather → (∀ m ∈ c.members, m.ended = true) →
        (∀ n < 32, taps n = true → (∀ m < n, taps m = false) → s.gestureGather f gather = all.win f n (rule n)) ∧
        ((∀ n < 32, taps n = false) → s.gestureGather f gather = (all, [])))) ∧
    (c.state ≠ .candidate → s.gestureEvaluate f = (s, [])) ∧
    (∀ (set left kept : List Nat) (read : State), c.state = .candidate →
      set = (if c.recompute = true then (List.range 32).filter fits else c.candidates) →
      read = State.afterReads .gesture (s.store.active .gesture) set (if c.recompute = true then all else s) →
      left = set.filter fits → kept = left.filter (fun n => !(rule n).struck c) →
      (∀ before n after, left = before ++ n :: after → (rule n).satisfied c = true →
        (∀ m ∈ before, (rule m).satisfied c = false) → s.gestureEvaluate f =
          State.win (read.setContext f { c with candidates := set, recompute := false }) f n (rule n)) ∧
      ((∀ n ∈ left, (rule n).satisfied c = false) → s.gestureEvaluate f =
        (read.setContext f { c with
          candidates := kept, recompute := false, state := if kept = [] then .passive else .candidate }, [])))) ∧
  (∀ (r : GestureRule) (c : Context) (late wide gone : Prop),
    (late ↔ r.timeMax ≠ 0 ∧ r.timeMax * 100 < c.elapsed) → (wide ↔ ∃ m ∈ c.members, r.distance * r.distance ≤ m.excursion) →
    (gone ↔ ∃ m ∈ c.members, m.ended = true) →
    (r.kind = some .tap → (r.struck c = true ↔ (late ∧ ∃ m ∈ c.members, m.ended = false) ∨ wide)) ∧
    (r.kind = some .hold → (r.struck c = true ↔ gone ∨ wide)) ∧
    ((r.kind = some .swipeLeft ∨ r.kind = some .swipeRight ∨ r.kind = some .swipeUp ∨ r.kind = some .swipeDown) →
      (r.struck c = true ↔ gone ∨ late)) ∧
    ((r.kind = some .pinchIn ∨ r.kind = some .pinchOut) → (r.struck c = true ↔ gone))) ∧
  (∀ r : GestureRule, r.inert = true ↔ r.enabled = false ∨ r.surface = none ∨ r.kind = none ∨ r.fingers < 1 ∨
    5 < r.fingers ∨ r.code = 0)

/-- The pointer (R110, R111). The followed track is the one remaining LIVE member of a GATHERING context of one, or the
first remaining LIVE member of a PASSIVE one, else none; a change of it gives no motion and a fresh reference. On an axis
the scaled value is the delta times the gain plus the remainder; the count is it over 256, toward zero, bounded to
-2048..2047; the new remainder is the scaled value less 256 times the count, up to its saturation, and within -255..255 where
the bound did not act. -/
def Obligations.PointerMotion : Prop :=
  (∀ (c : Context) (slots : List (Option Track)),
    (∀ m, c.state = .gathering → c.members = [m] → followedSlot c slots =
      if m.ended = false ∧ liveAt slots m.slot = true then some m.slot else none) ∧
    (∀ i, liveAt slots i = true ↔ ∃ t, slots[i]? = some (some t) ∧ t.state = .live) ∧
    (c.state = .passive → followedSlot c slots =
      ((c.members.filter (fun m => !m.ended && liveAt slots m.slot)).map Member.slot).head?) ∧
    ((c.state ≠ .gathering ∨ c.members.length ≠ 1) → c.state ≠ .passive → followedSlot c slots = none)) ∧
  (∀ (delta rem n : Int) (gain : Nat), n = Int.tdiv (delta * gain + rem) 256 →
    (axisMotion delta gain rem).1 = (if n < -2048 then -2048 else if 2047 < n then 2047 else n) ∧
    (-2048 ≤ n → n ≤ 2047 → (axisMotion delta gain rem).2 = delta * gain + rem - 256 * n ∧
      -255 ≤ (axisMotion delta gain rem).2 ∧ (axisMotion delta gain rem).2 ≤ 255) ∧
    (n < -2048 ∨ 2047 < n → (axisMotion delta gain rem).2 =
      max (-8388608) (min 8388607 (delta * gain + rem - 256 * (axisMotion delta gain rem).1)))) ∧
  (∀ (p : PointerRecord) (c : Context) (slots : List (Option Track)) (gain : Nat),
    (∀ i t, followedSlot c slots = some i → slots[i]? = some (some t) → p.followed = some i →
      pointerStep p c slots gain =
        ({ p with refX := t.x, refY := t.y, remX := (axisMotion ((t.x : Int) - p.refX) gain p.remX).2,
                  remY := (axisMotion ((t.y : Int) - p.refY) gain p.remY).2 },
         (axisMotion ((t.x : Int) - p.refX) gain p.remX).1, (axisMotion ((t.y : Int) - p.refY) gain p.remY).1)) ∧
    (∀ i t, followedSlot c slots = some i → slots[i]? = some (some t) → p.followed ≠ some i →
      pointerStep p c slots gain = ({ followed := some i, refX := t.x, refY := t.y, remX := 0, remY := 0 }, 0, 0)) ∧
    (followedSlot c slots = none → p.followed ≠ none →
      pointerStep p c slots gain = ({ p with followed := none, remX := 0, remY := 0 }, 0, 0)) ∧
    (followedSlot c slots = none → p.followed = none → pointerStep p c slots gain = (p, 0, 0)))

/-! ## The pen -/

/-- PEN_FRAME_TAKE (R6, R60). An idle pen operation with a waiting frame, no commit pending and no drop pending takes it:
the slot and its tally are empty, one more frame hold, the current POSTURE row is read and its pen enable kept with the
frame (log entry 17), and the row read is evaluated for the enables (R43). -/
def Obligations.PenFrameTake : Prop :=
  ∀ (fr : PenFrame) (s : State), s.inReset = false → s.pen.op = none → s.pen.slot.frame = some fr →
    s.store.commit = none → s.pen.dropPending = false →
    exec .penFrameTake s = .next (State.finish (State.evaluateEnables
      { s.readPosture with
        pen := { s.pen with
          slot := { frame := none, tally := 0 },
          op := some { frame := fr, tally := s.pen.slot.tally, enabled := s.postureRow.enables.pen } },
        store := { s.readPosture.store with holds := s.readPosture.store.holds + 1 } }
      s.postureRow.enables))

/-- PEN_FRAME_COMPLETION (R58 to R66, R70, R72). The pen's state and the frame's records are as its flags and the state
found say: nothing, a drop for a disabled pen, a leave, a take-up or a continuation with its profile lookup, or a conflict.
The records are offered, FRAME_OVERRUN after them for a tally; an evaluated frame in range is reported to the Mode Engine;
then the hold is released and the operation is idle. With none in progress no effect (log entry 2). The model's choice: the
pen enable read at the take decides which rule applies, with the state found at the completion (log entry 17), and an
out-of-range frame and one in conflict make no lookup where a refresh is due, against R59's words (log entry 18). -/
def Obligations.PenFrameCompletion : Prop :=
  (∀ s : State, Quiet s → s.pen.op = none → exec .penFrameCompletion s = .next s.finish) ∧
  (∀ (op : PenOp) (s : State), Quiet s → s.pen.op = some op →
    ∃ (done : State → List Offer → State) (absent : PenUnit) (leaving : PenSample → PenSample),
      (∀ u g v w, v = u.offer (g ++ if op.tally = 0 then [] else [.event (.frameOverrun .pen op.tally)]) →
        w = (if op.enabled = true ∧ op.frame.inRange = true then v.reportReturn else v) →
        done u g = State.finish
          { w with pen := { w.pen with op := none }, store := { w.store with holds := w.store.holds - 1 } }) ∧
      absent = { s.pen with
        state := .absent, followed := none, conflict := false, linger := none,
        guard := { s.pen.guard with active := false, retroWindow := 0 } } ∧
      (∀ p, leaving p = { p with pressure := 0, hover := 255, barrel := false, eraser := false }) ∧
      (op.enabled = false → s.pen.state = .absent → exec .penFrameCompletion s = .next (done s [])) ∧
      (op.enabled = false → s.pen.state = .linger →
        exec .penFrameCompletion s = .next (done { s with pen := absent } [])) ∧
      (∀ w p, op.enabled = false → (s.pen.state = .hover ∨ s.pen.state = .ink) → s.pen.followed = some w →
        s.pen.lastSample = some p → exec .penFrameCompletion s = .next (done { s with pen := absent }
          [.data .pen (.pen .absent (leaving p)), .event (.penLeave w.serial .disabled)])) ∧
      (op.enabled = true → op.frame.inRange = false → (s.pen.state = .absent ∨ s.pen.state = .linger) →
        exec .penFrameCompletion s = .next (done s [])) ∧
      (∀ w p, op.enabled = true → op.frame.inRange = false → (s.pen.state = .hover ∨ s.pen.state = .ink) →
        s.pen.followed = some w → s.pen.lastSample = some p →
        (s.pen.guard.active = true → 0 < w.profile.linger → exec .penFrameCompletion s = .next (done
          { s with pen := { s.pen with state := .linger, conflict := false, linger := some (10 * w.profile.linger) } }
          [.data .pen (.pen .linger (leaving p)), .event (.penLeave w.serial .range)])) ∧
        ((s.pen.guard.active = false ∨ w.profile.linger = 0) → exec .penFrameCompletion s = .next (done
          { s with pen := absent }
          [.data .pen (.pen .absent (leaving p)), .event (.penLeave w.serial .range)]))) ∧
      (∀ w st, op.enabled = true → op.frame.inRange = true → (s.pen.state = .absent ∨ s.pen.state = .linger) →
        w = s.lookupPen op.frame.serial → st = penStateFor op.frame w.profile →
        exec .penFrameCompletion s = .next (done
          { s.afterPenLookup with pen := { s.pen with
              state := st, followed := some w, refreshDue := false, lastSample := some op.frame.sample, linger := none,
              conflict := false, guard := guardFor s.pen.guard s.pen.state op.frame w.profile } }
          ((if s.pen.state = .absent ∨ op.frame.serial ≠ s.pen.serial then [.event (.penEnter op.frame.serial)] else []) ++
            [.data .pen (.pen st op.frame.sample)]))) ∧
      (∀ w, op.enabled = true → op.frame.inRange = true → (s.pen.state = .hover ∨ s.pen.state = .ink) →
        s.pen.followed = some w →
        (op.frame.serial ≠ w.serial → exec .penFrameCompletion s = .next (done
          { s with pen := { s.pen with conflict := true } }
          (if s.pen.conflict = true then [] else [.event (.penConflict op.frame.serial)]))) ∧
        (op.frame.serial = w.serial → s.pen.refreshDue = false → exec .penFrameCompletion s = .next (done
          { s with pen := { s.pen with
              state := penStateFor op.frame w.profile, lastSample := some op.frame.sample, linger := none,
              guard := guardFor s.pen.guard s.pen.state op.frame w.profile } }
          [.data .pen (.pen (penStateFor op.frame w.profile) op.frame.sample)])) ∧
        (∀ w', op.frame.serial = w.serial → s.pen.refreshDue = true → w' = s.lookupPen op.frame.serial →
          exec .penFrameCompletion s = .next (done
            { s.afterPenLookup with pen := { s.pen with
                state := penStateFor op.frame w'.profile, followed := some w', refreshDue := false,
                lastSample := some op.frame.sample, linger := none,
                guard := guardFor s.pen.guard s.pen.state op.frame w'.profile } }
            [.data .pen (.pen (penStateFor op.frame w'.profile) op.frame.sample)]))))

/-- The profile lookup (R58): the rows of the active PEN bank that read neither faulted nor inert are searched, the first
with the pen's serial, else the first with serial 0, else the fallback profile, whose ten fields are NONE and 0; all eight
rows are read in ascending order. Ink detection and the guard of a frame acted on (R61, R66, R67, R69). INK takes the tip
and the threshold's pressure. The guard is active unless the hand is NONE, for INK, a set tip, or a hover within the limit;
a change to active and an entry to INK each raise their count, modulo 256. An active guard's bounds are the frame's position
and the profile's distances, clipped to the panel, ahead toward larger x for RIGHT as R67's table and its example have it
(log entry 30); an inactive one keeps its bounds. -/
def Obligations.PenLookupAndGuard : Prop :=
  (∀ (s : State) (serial : Word) (row : Nat → StoredRow) (serves : Word → Nat → Prop),
     (∀ n, row n = s.store.row .pen (s.store.active .pen) n) →
     (∀ x n, serves x n ↔ n < 8 ∧ (row n).integrity ≠ .uncorrectable ∧ (row n).inert = false ∧ penSerialOf (row n).bytes = x) →
     (∀ n, serves serial n → (∀ m < n, ¬ serves serial m) → s.lookupPen serial =
       { serial := serial, profile := penProfileOf (row n).bytes, source := .row n }) ∧
     (∀ n, (∀ m, ¬ serves serial m) → serves 0#32 n → (∀ m < n, ¬ serves 0#32 m) → s.lookupPen serial =
       { serial := serial, profile := penProfileOf (row n).bytes, source := .row n }) ∧
     ((∀ m, ¬ serves serial m) → (∀ m, ¬ serves 0#32 m) → s.lookupPen serial =
       { serial := serial, source := .fallback,
         profile := { hand := .none, ahead := 0, behind := 0, above := 0, below := 0, hoverLimit := 0, inkThreshold := 0,
                      linger := 0, retroWindow := 0 } }) ∧
     s.afterPenLookup = State.afterReads .pen (s.store.active .pen) [0, 1, 2, 3, 4, 5, 6, 7] s) ∧
  (∀ (g : PenGuard) (before : PenState) (f : PenFrame) (p : PenProfile),
     (penStateFor f p = .ink ↔ f.tip = true ∧ p.inkThreshold ≤ f.sample.pressure) ∧
     (penStateFor f p ≠ .ink → penStateFor f p = .hover) ∧
     ((guardFor g before f p).active = true ↔
       p.hand ≠ .none ∧ (penStateFor f p = .ink ∨ f.tip = true ∨ f.sample.hover ≤ p.hoverLimit)) ∧
     (guardFor g before f p).activation = (if (guardFor g before f p).active = true ∧ g.active = false then
       (g.activation + 1) % 256 else g.activation) ∧
     (guardFor g before f p).ink = (if penStateFor f p = .ink ∧ before ≠ .ink then (g.ink + 1) % 256 else g.ink) ∧
     (guardFor g before f p).retroWindow = p.retroWindow ∧
     ((guardFor g before f p).active = false → (guardFor g before f p).xMin = g.xMin ∧ (guardFor g before f p).xMax = g.xMax ∧
       (guardFor g before f p).yMin = g.yMin ∧ (guardFor g before f p).yMax = g.yMax) ∧
     ((guardFor g before f p).active = true →
       (p.hand = .right →
         ((guardFor g before f p).xMin : Int) = max 0 (min 16383 ((f.sample.x : Int) - p.behind)) ∧
         ((guardFor g before f p).xMax : Int) = max 0 (min 16383 ((f.sample.x : Int) + p.ahead))) ∧
       (p.hand = .left →
         ((guardFor g before f p).xMin : Int) = max 0 (min 16383 ((f.sample.x : Int) - p.ahead)) ∧
         ((guardFor g before f p).xMax : Int) = max 0 (min 16383 ((f.sample.x : Int) + p.behind))) ∧
       ((guardFor g before f p).yMin : Int) = max 0 (min 10239 ((f.sample.y : Int) - p.above)) ∧
       ((guardFor g before f p).yMax : Int) = max 0 (min 10239 ((f.sample.y : Int) + p.below))))

/-- PEN_DROP and LINGER_EXPIRY (R68, R71, R72). A request for a drop is taken at once by an idle operation, else it is
pending, and the row takes it. Taken in HOVER or INK it offers the PEN record with state ABSENT and the leaving values, then
PEN_LEAVE with cause DROPPED; in LINGER and ABSENT nothing; in all three the pen is ABSENT and the guard inactive, and the
last sample stays. A linger timer that runs out does the same without a record; one that does not run does not run out
(log entry 2). -/
def Obligations.PenDropAndLinger : Prop :=
  (∀ s : State, ∃ gone : PenUnit,
    gone = { s.pen with
      state := .absent, followed := none, conflict := false, linger := none,
      guard := { s.pen.guard with active := false, retroWindow := 0 } } ∧
    (s.pen.op ≠ none → s.requestDrop = { s with pen := { s.pen with dropPending := true } }) ∧
    (s.pen.op = none → s.requestDrop = s.takeDrop) ∧
    (s.inReset = false → s.pen.op = none → s.pen.dropPending = true →
      exec .penDrop s = .next s.takeDrop.finish) ∧
    ((s.pen.state = .absent ∨ s.pen.state = .linger) → s.takeDrop = { s with pen := { gone with dropPending := false } }) ∧
    (∀ w p, (s.pen.state = .hover ∨ s.pen.state = .ink) → s.pen.followed = some w → s.pen.lastSample = some p →
      s.takeDrop = State.offer { s with pen := { gone with dropPending := false } }
        [.data .pen (.pen .absent { p with pressure := 0, hover := 255, barrel := false, eraser := false }),
         .event (.penLeave w.serial .dropped)]) ∧
    (Quiet s → s.pen.linger ≠ none → exec .lingerExpiry s = .next (State.finish { s with pen := gone })) ∧
    (Quiet s → s.pen.linger = none → exec .lingerExpiry s = .next s.finish))

/-- Every step keeps the Pen Record's fields in the relation of R56 to its state: ABSENT follows no pen, has no timer and no
active guard; HOVER and INK have a profile and a last sample and no timer; LINGER has all of them and an active guard. -/
def Obligations.PenRecordKept : Prop :=
  ∀ s t : State, PenInv s.pen → step s = .next t → PenInv t.pen

/-- Every step keeps the frame-hold count equal to the number of frame operations in progress (R118), and the swap of a
commit finds it 0, so the bank selects do not change under a frame in progress (R126). -/
def Obligations.FrameHoldsKept : Prop :=
  (∀ s t : State, HoldsInv s → step s = .next t → HoldsInv t) ∧
  (∀ (s : State), HoldsInv s → s.isDue .swap = true → s.pad.op = none ∧ s.panel.op = none ∧ s.pen.op = none)

/-! ## Zones, the lines and the enables -/

/-- A zone lookup (R49 to R51): no row of the posture's page contains the point, and the answer is NONE; or it is the kind of
a row that contains it, of the highest rank among those that do. A faulted or inert row reads as NONE. All 24 rows of the
page are read in ascending order, whatever they hold. -/
def Obligations.ZoneLookup : Prop :=
  ∀ (s : State) (f : Surface) (x y posture : Nat) (zone : Nat → ZoneRow) (holds : Nat → Prop) (rank : ZoneKind → Nat),
    (∀ i stored, stored = s.store.row .zone (s.store.active .zone) (posture * 24 + i) →
      zone i = zoneOf (if stored.integrity = .uncorrectable ∨ stored.inert = true then List.replicate 12 0x00#8
        else stored.bytes)) →
    (∀ i, holds i ↔ i < 24 ∧ (zone i).kind ≠ .none ∧ (zone i).surface = some f ∧ (zone i).xLo ≤ x ∧ x < (zone i).xHi ∧
      (zone i).yLo ≤ y ∧ y < (zone i).yHi) →
    (rank .block = 5 ∧ rank .pass = 4 ∧ rank .rclick = 3 ∧ rank .guard = 2 ∧ rank .edge = 1 ∧ rank .none = 0) →
    ((∀ i, ¬ holds i) → s.lookup f x y posture = .none) ∧
    (∀ i, holds i → (∀ j, holds j → rank (zone j).kind ≤ rank (zone i).kind) →
      s.lookup f x y posture = (zone i).kind) ∧
    s.afterLookup posture =
      State.afterReads .zone (s.store.active .zone) ((List.range 24).map (fun i => posture * 24 + i)) s

/-- KEYACT and TYPING_GUARD_EXPIRY (R88, R43): a pulse restarts the timer with the typing hold of the current POSTURE row,
in units of 10 ms, 0 stopping it, and its read of the row is evaluated for the enables; an expiry stops it. BTN_PRESS (R54,
R112): with the pad enabled and no button pressed, the button is the right one if some position of the click view looks up
RCLICK, else the left one, and a POINTER record without motion carries it; otherwise the press is ignored. BTN_RELEASE
(R112): with the pad enabled and a button pressed, the button is released with its record; otherwise it is ignored. That the
release also clears the one owed to the pad's forced end is the model's choice, log entry 23. -/
def Obligations.LineEvents : Prop :=
  (∀ s : State, Quiet s →
    exec .keyact s = .next (State.finish (State.consultPosture { s with palm := { s.palm with
      typing := if s.postureRow.typingHold = 0 then none else some (10 * s.postureRow.typingHold) } })) ∧
    exec .typingGuardExpiry s = .next (State.finish { s with palm := { s.palm with typing := none } })) ∧
  (∀ s : State, Quiet s →
    (s.command.enables.pad = true → s.gesture.button = .none →
      ∃ (looked : State) (b : Button),
        looked = State.afterLookups s.command.select s.gesture.clickView s ∧
        ((∃ p ∈ s.gesture.clickView, s.lookup .pad p.1 p.2 s.command.select = .rclick) → b = .right) ∧
        ((∀ p ∈ s.gesture.clickView, s.lookup .pad p.1 p.2 s.command.select ≠ .rclick) → b = .left) ∧
        exec .btnPress s = .next (State.finish (State.offer
          { looked with gesture := { s.gesture with button := b } }
          [.data .pad (.pointer 0 0 { left := decide (b = .left), right := decide (b = .right), middle := false })]))) ∧
    ((s.command.enables.pad = false ∨ s.gesture.button ≠ .none) → exec .btnPress s = .next s.finish) ∧
    (s.command.enables.pad = true → s.gesture.button ≠ .none →
      exec .btnRelease s = .next (State.finish (State.offer
        { s with gesture := { s.gesture with button := .none, releaseOwed := false } }
        [.data .pad (.pointer 0 0 { left := false, right := false, middle := false })]))) ∧
    ((s.command.enables.pad = false ∨ s.gesture.button = .none) → exec .btnRelease s = .next s.finish))

/-- Enable changes (R43 to R47) and desired settings (R137, R138). A reader of R41 reads the row of the posture select from
the active POSTURE bank, as its inert row bytes where it reads inert, and the enables it read are evaluated. An evaluation that finds the enables in force changes
nothing. Any other sets them; a pad disable empties the pad's slot, has a pressed button released by its forced end and
requests that; a panel disable empties the panel's slots, requests the forced end and the drop of the pen; then each link's
desired setting is evaluated: except in WAKING and in settled SLEEP, one that differs from the commanded setting is commanded,
with its scan change in flight, the settle timer stopped and SCAN_CONTROL originated. The pad before the panel, the forced
end before the drop of the pen (R72 leaves that order open), and a release owed to the pad's forced end are the model's
choice, log entries 13 and 23. -/
def Obligations.EnableAndScanChanges : Prop :=
  (∀ (s : State) (row : StoredRow), row = s.store.row .posture (s.store.active .posture) s.command.select →
    s.consultPosture = s.readPosture.evaluateEnables s.postureRow.enables ∧
    s.readPosture = s.afterRead .posture (s.store.active .posture) s.command.select ∧
    s.postureRow = postureOf (if row.integrity = .uncorrectable ∨ row.inert = true then
      [0x07#8, 0x00#8, 0x00#8, 0x1E#8, 0x3C#8, 0x3C#8, 0x00#8, 0x00#8, 0x00#8, 0x00#8, 0x00#8, 0x00#8] else row.bytes)) ∧
  (∀ s : State, s.evaluateEnables s.command.enables = s) ∧
  (∀ (s : State) (e : Enables), e ≠ s.command.enables →
    ∃ a b c : State, a = { s with command := { s.command with enables := e } } ∧
      (s.command.enables.pad = true → e.pad = false → b = State.requestForcedEnd
        { a with pad := { a.pad with slot := { frame := none, tally := 0 } },
                 gesture := { a.gesture with releaseOwed := decide (a.gesture.button ≠ .none) } } .pad) ∧
      ((s.command.enables.pad = false ∨ e.pad = true) → b = a) ∧
      (s.command.enables.panel = true → e.panel = false → c = State.requestDrop (State.requestForcedEnd
        { b with panel := { b.panel with slot := { frame := none, tally := 0 } },
                 pen := { b.pen with slot := { frame := none, tally := 0 } } } .panel)) ∧
      ((s.command.enables.panel = false ∨ e.panel = true) → c = b) ∧
      s.evaluateEnables e = c.evaluateScans) ∧
  (∀ (s : State) (l : Surface) (v : Setting),
    (s.mode.mode = .active → v = if s.enabled l = true then .full else .off) →
    (s.mode.mode = .idle → v = if s.enabled l = true then .reduced else .off) →
    (s.mode.mode = .doze → v = if s.enabled l = true then .wakeOnTouch else .off) →
    (s.mode.mode = .sleep → v = .off) →
    ((s.mode.mode = .waking ∨ (s.mode.mode = .sleep ∧ s.mode.transition = none) ∨ (s.link l).commanded = v) →
      s.evaluateScan l = s) ∧
    (s.mode.mode ≠ .waking → ¬ (s.mode.mode = .sleep ∧ s.mode.transition = none) → (s.link l).commanded ≠ v →
      s.evaluateScan l = s.setLink l (Link.originate
        { s.link l with commanded := v, scanChange := true, settle := none } (.scanControl v)))) ∧
  (∀ s : State, s.evaluateScans = (s.evaluateScan .pad).evaluateScan .panel)

/-! ## Modes -/

/-- AUTO_IDLE_EXPIRY (R142): a running timer that runs out begins a transition toward IDLE, cause AUTO, in its SCAN phase.
WAKE_DWELL_EXPIRY (R146): the dwell stops. Returns (R143): settled IDLE with no SET_MODE in progress begins a transition
toward ACTIVE, cause AUTO; with the transition toward IDLE in flight return due is set; any other report is ignored. That
AUTO_IDLE_EXPIRY has no effect while the timer is stopped is the model's choice, log entry 2. -/
def Obligations.AutomaticModeChanges : Prop :=
  (∀ s : State, Quiet s →
    (s.mode.autoIdle ≠ none → exec .autoIdleExpiry s = .next (State.finish (State.evaluateScans
      { s with mode := { s.mode with
          mode := .idle, transition := some { target := .idle, phase := .scan, cause := .auto } } }))) ∧
    (s.mode.autoIdle = none → exec .autoIdleExpiry s = .next s.finish) ∧
    exec .wakeDwellExpiry s = .next (State.finish { s with mode := { s.mode with dwell := none } })) ∧
  (∀ s : State,
    (s.mode.mode = .idle → s.mode.transition = none → s.mode.setMode = none → s.reportReturn = State.evaluateScans
      { s with mode := { s.mode with
          mode := .active, transition := some { target := .active, phase := .scan, cause := .auto } } }) ∧
    (∀ t, s.mode.mode = .idle → s.mode.transition = some t → t.target = .idle → s.mode.setMode = none →
      s.reportReturn = { s with mode := { s.mode with returnDue := true } }) ∧
    ((s.mode.mode ≠ .idle ∨ s.mode.setMode ≠ none ∨ ∃ t, s.mode.transition = some t ∧ t.target ≠ .idle) →
      s.reportReturn = s))

/-- WAKE_PHASE_END (R140, R141). Once neither link awaits its reply and the wake pass has ended: the diag toggle inverts if
every queried link replied and the pass counted no row, DIAG carries the outcomes, the count and the toggle, the dwell
starts at 50 ms, the mode is the transition's target and its SCAN phase begins; toward DOZE the slots are emptied and the
forced ends and the drop requested (R144). -/
def Obligations.WakePhaseEnd : Prop :=
  ∀ (s : State) (t : Transition) (n : Nat), s.inReset = false → s.mode.transition = some t → t.phase = .wake →
    s.padLink.outcome ≠ .awaiting → s.panelLink.outcome ≠ .awaiting → s.mode.wakeCount = some n →
    ∃ (toggle : Bool) (u : State),
      (((s.padLink.outcome = .replied ∨ s.padLink.outcome = .notQueried) ∧
          (s.panelLink.outcome = .replied ∨ s.panelLink.outcome = .notQueried) ∧ n = 0) → toggle = !s.mode.toggle) ∧
      (¬ ((s.padLink.outcome = .replied ∨ s.padLink.outcome = .notQueried) ∧
          (s.panelLink.outcome = .replied ∨ s.panelLink.outcome = .notQueried) ∧ n = 0) → toggle = s.mode.toggle) ∧
      u = State.evaluateScans
        { s.raise (.diag s.padLink.outcome s.panelLink.outcome n toggle) with
          mode := { s.mode with
            mode := t.target, transition := some { t with phase := .scan }, toggle := toggle, dwell := some 50,
            wakeCount := none } } ∧
      (t.target ≠ .doze → exec .wakePhaseEnd s = .next u.finish) ∧
      (t.target = .doze → exec .wakePhaseEnd s = .next (State.finish (State.requestDrop (State.requestForcedEnd
        (State.requestForcedEnd ((u.emptySlots .pad).emptySlots .panel) .pad) .panel))))

/-- TRANSITION_COMPLETE (R139). With no scan change in flight on either link, a transition in its SCAN phase is over: the mode
is settled and MODE_CHANGED carries it and the cause; then the SET_MODE that drove it is answered DONE with the mode, or a
waiting SET_MODE that may start is left to its start, or return due is taken toward ACTIVE. -/
def Obligations.TransitionComplete : Prop :=
  ∀ (s u : State) (t : Transition), s.inReset = false → s.mode.transition = some t → t.phase = .scan →
    s.padLink.scanChange = false → s.panelLink.scanChange = false →
    u = State.raise { s with mode := { s.mode with transition := none } } (.modeChanged s.mode.mode t.cause) →
    (∀ c, s.mode.setMode = some c → c.driving = true → exec .transitionComplete s = .next (State.finish (State.respond
      { u with mode := { u.mode with setMode := none } } Command.setMode.code .done (putU8 s.mode.mode.code)))) ∧
    (∀ c, s.mode.setMode = some c → c.driving = false → (c.target ≠ .sleep ∨ s.mode.dwell = none) →
      exec .transitionComplete s = .next u.finish) ∧
    ((s.mode.setMode = none ∨ ∃ c, s.mode.setMode = some c ∧ c.driving = false ∧ c.target = .sleep ∧ s.mode.dwell ≠ none) →
      (s.mode.returnDue = false → exec .transitionComplete s = .next u.finish) ∧
      (s.mode.returnDue = true → exec .transitionComplete s = .next (State.finish (State.evaluateScans
        { u with mode := { u.mode with
            mode := .active, transition := some { target := .active, phase := .scan, cause := .auto },
            returnDue := false } }))))

/-- SET_MODE and SET_MODE_START (R140, R144, R146, R147). Taken, a target of IDLE or an unassigned code is BAD_ARG; any other
is in progress, holding the slot, with a delay for target ACTIVE alone. It starts with no transition in flight and, for SLEEP,
no dwell: return due is cleared, a delay is taken, and the settled mode and the target decide: DONE at once where they agree;
out of SLEEP the WAKE phase, which queries the enabled links and requests the wake pass; else a SCAN phase of cause COMMAND,
toward DOZE and SLEEP with the slots emptied and the forced ends and the drop requested, toward SLEEP with both links OFF. The
order of the two forced ends, the drop and the pass-down drops, which R154 leaves open, is the model's choice, log entry
13. -/
def Obligations.SetModeTakenAndStarted : Prop :=
  (∀ (p : Bytes) (s : State), CommandReady s → p.length = 3 →
    ((u8At p 0 ≠ 1 ∧ u8At p 0 ≠ 2 ∧ u8At p 0 ≠ 3) →
      exec (.setMode p) s = .next (State.finish (s.answered .setMode .badArg []))) ∧
    (∀ target, (u8At p 0 = 1 ∧ target = Mode.active) ∨ (u8At p 0 = 2 ∧ target = Mode.doze) ∨
        (u8At p 0 = 3 ∧ target = Mode.sleep) →
      exec (.setMode p) s = .next (State.finish { s with
        command := { s.command with slot := some Command.setMode.code },
        mode := { s.mode with
          setMode := some {
            target := target, driving := false,
            delay := if u8At p 0 = 1 ∧ u8At p 1 ≠ 0 then some (u8At p 2) else none } } }))) ∧
  (∀ (s u : State) (c : SetMode), s.inReset = false → s.mode.setMode = some c → c.driving = false →
    s.mode.transition = none → (c.target = .sleep → s.mode.dwell = none) →
    u = { s with mode := { s.mode with
      returnDue := false, delay := c.delay.getD s.mode.delay, setMode := some { c with driving := true } } } →
    (s.mode.mode = c.target → exec .setModeStart s = .next (State.finish (State.respond
      { u with mode := { u.mode with setMode := none } } Command.setMode.code .done (putU8 c.target.code)))) ∧
    (s.mode.mode = .sleep → c.target ≠ .sleep → ∃ pad panel : Link,
      pad = (if s.command.enables.pad = true then Link.originate { s.padLink with outcome := .awaiting } .idQuery
        else { s.padLink with outcome := .notQueried }) ∧
      panel = (if s.command.enables.panel = true then Link.originate { s.panelLink with outcome := .awaiting } .idQuery
        else { s.panelLink with outcome := .notQueried }) ∧
      exec .setModeStart s = .next (State.finish { u with
        padLink := pad, panelLink := panel,
        mode := { u.mode with
          mode := .waking, transition := some { target := c.target, phase := .wake, cause := .command }, wakeCount := none },
        store := { u.store with verify := some .wake } })) ∧
    (s.mode.mode ≠ .sleep → s.mode.mode ≠ .active → c.target = .active →
      exec .setModeStart s = .next (State.finish (State.evaluateScans { u with mode := { u.mode with
        mode := .active, transition := some { target := .active, phase := .scan, cause := .command } } }))) ∧
    (∀ v : State, v = State.requestDrop (State.requestForcedEnd (State.requestForcedEnd (State.emptySlots (State.emptySlots
        { u with mode := { u.mode with
            mode := c.target, transition := some { target := c.target, phase := .scan, cause := .command } } }
        .pad) .panel) .pad) .panel) →
      (s.mode.mode ≠ .sleep → s.mode.mode ≠ .doze → c.target = .doze →
        exec .setModeStart s = .next (State.finish v.evaluateScans)) ∧
      (s.mode.mode ≠ .sleep → c.target = .sleep →
        exec .setModeStart s = .next (State.finish (State.evaluateScans ((v.enterOff .pad).enterOff .panel))))) ∧
    (∀ (v : State) (l : Surface),
      (v.link l).state = .up → v.enterOff l =
        { v.setLink l { v.link l with state := .off, watch := none, passDown := [] } with
          queue := v.queue.raiseAll ((v.link l).passDown.map (fun _ => .passDrop l .linkOff)) }) ∧
    (∀ (v : State) (l : Surface), (v.link l).state ≠ .up →
      v.enterOff l = v.setLink l { v.link l with state := .off, watch := none }))

/-! ## The Table Store -/

/-- The loads (R119 to R122, R134). LOAD_BEGIN's five tests in their order, then the open load at its first row with status
LOADING. LOAD_ROWS with no load is BAD_STATE; refused, it closes the load with its table BROKEN; else its rows are written
from the cursor on into the staging bank, folded into the running CRC, the cursor and the count advance and the timer
restarts. LOAD_END answers SHORT, CRC_FAIL or DONE, and LOAD_ABORT answers ABORTED; the load is closed. LOAD_STEP_TIMEOUT
closes it with LOAD_TIMEOUT; with no load open it has no effect (log entry 2). -/
def Obligations.Loads : Prop :=
  (∀ (p : Bytes) (s : State), CommandReady s → p.length = 3 →
    (5 ≤ u8At p 0 → exec (.loadBegin p) s = .next (State.finish (s.answered .loadBegin .badArg []))) ∧
    (∀ t locked, u8At p 0 = tableCode t →
      (locked ↔ t = .zone ∧ ∃ i < max 1 (u8At p 2), u8At p 1 + i < 96 ∧ (u8At p 1 + i) % 24 < s.store.lock) →
      (s.store.load ≠ none → exec (.loadBegin p) s = .next (State.finish (s.answered .loadBegin .badState []))) ∧
      (s.store.load = none → s.store.status t = .copying →
        exec (.loadBegin p) s = .next (State.finish (s.answered .loadBegin .tableBusy []))) ∧
      (s.store.load = none → s.store.status t ≠ .copying → locked →
        exec (.loadBegin p) s = .next (State.finish (s.answered .loadBegin .protectedZone []))) ∧
      (s.store.load = none → s.store.status t ≠ .copying → ¬ locked →
        (tableRows t ≤ u8At p 1 ∨ tableRows t < u8At p 1 + u8At p 2) →
        exec (.loadBegin p) s = .next (State.finish (s.answered .loadBegin .badArg []))) ∧
      (s.store.load = none → s.store.status t ≠ .copying → ¬ locked → u8At p 1 < tableRows t →
        u8At p 1 + u8At p 2 ≤ tableRows t →
        exec (.loadBegin p) s = .next (State.finish (State.answered
          { s with store := { s.store.setStatus t .loading with
              load := some { table := t, first := u8At p 1, count := if u8At p 2 = 0 then none else some (u8At p 2),
                             cursor := u8At p 1, written := 0, crc := crc32Init, timer := some 100 } } }
          .loadBegin .done (p.take 3)))))) ∧
  (∀ (p : Bytes) (s : State), CommandReady s →
    (s.store.load = none → exec (.loadRows p) s = .next (State.finish (s.answered .loadRows .badState []))) ∧
    (∀ ld n broken bad locked, s.store.load = some ld → n = p.length / rowSize ld.table →
      broken = { s with store := { s.store.setStatus ld.table .broken with load := none } } →
      (bad ↔ p.length = 0 ∨ p.length % rowSize ld.table ≠ 0 ∨ (∃ k, ld.count = some k ∧ k < ld.written + n) ∨
        (ld.count = none ∧ tableRows ld.table < ld.cursor + n)) →
      (locked ↔ ld.table = .zone ∧ ∃ i < n, ld.cursor + i < 96 ∧ (ld.cursor + i) % 24 < s.store.lock) →
      (bad → exec (.loadRows p) s = .next (State.finish (State.answered broken .loadRows .badArg []))) ∧
      (¬ bad → locked → exec (.loadRows p) s = .next (State.finish (State.answered broken .loadRows .protectedZone
        (putU8 ld.cursor ++ putU8 ld.written)))) ∧
      (¬ bad → ¬ locked → ∃ rows : List Bytes, rows.flatten = p ∧ rows.length = n ∧
        (∀ r ∈ rows, r.length = rowSize ld.table) ∧
        exec (.loadRows p) s = .next (State.finish (State.answered
          { s with store :=
              { TableStore.writeRows ld.table (s.store.staging ld.table) ld.cursor rows s.store with
                load := some { ld with cursor := ld.cursor + n, written := ld.written + n, crc := crc32Fold ld.crc p,
                                       timer := some 100 } } }
          .loadRows .done (putU8 (ld.cursor + n) ++ putU8 (ld.written + n))))))) ∧
  (∀ (p : Bytes) (s : State), CommandReady s → p.length = 4 →
    (s.store.load = none → exec (.loadEnd p) s = .next (State.finish (s.answered .loadEnd .badState []))) ∧
    (∀ ld v, s.store.load = some ld →
      ((∃ k, ld.count = some k ∧ ld.written < k) → v = .short) →
      ((∀ k, ld.count = some k → k ≤ ld.written) → u32At p 0 ≠ (crc32Final ld.crc).toNat → v = .crcFail) →
      ((∀ k, ld.count = some k → k ≤ ld.written) → u32At p 0 = (crc32Final ld.crc).toNat → v = .done) →
      exec (.loadEnd p) s = .next (State.finish (State.answered
        { s with store := { s.store.setStatus ld.table (if v = .done then .edited else .broken) with load := none } }
        .loadEnd v (putU8 ld.written ++ putU32 (crc32Final ld.crc).toNat))))) ∧
  (∀ s : State, CommandReady s →
    (s.store.load = none → exec (.loadAbort []) s = .next (State.finish (s.answered .loadAbort .badState []))) ∧
    (∀ ld, s.store.load = some ld → exec (.loadAbort []) s = .next (State.finish (State.answered
      { s with store := { s.store.setStatus ld.table .broken with load := none } } .loadAbort .aborted
      (putU8 ld.written))))) ∧
  (∀ s : State, Quiet s →
    (s.store.load = none → exec .loadStepTimeout s = .next s.finish) ∧
    (∀ ld, s.store.load = some ld → exec .loadStepTimeout s = .next (State.finish (State.raise
      { s with store := { s.store.setStatus ld.table .broken with load := none } }
      (.loadTimeout ld.table ld.cursor ld.written)))))

/-- Stored rows (R116, R129, R131 to R133). A read finds an intact row as stored, or inert by its mark; a single-bit error as
corrected, which it rewrites intact and counts; a faulted row as the inert row bytes, which it adds to the Row Fault List with
TABLE_FAULT, unless it is listed, or, with 8 entries, sets the overflow flag. Rows are loaded one after another, each with a
clear mark and leaving the list. A write of a row is the row read there afterwards, and changes no other row. That a row with
a single-bit error and its mark set reads as CORRECTED, and that a row holds its check's verdict, are the model's choice, log
entries 16 and 5. -/
def Obligations.StoredRows : Prop :=
  (∀ (t : Table) (r : StoredRow),
    (r.integrity = .intact → r.view t =
      { bytes := r.bytes, inert := r.inert, condition := if r.inert = true then .inert else .good }) ∧
    (r.integrity = .singleBit → r.view t = { bytes := r.bytes, inert := r.inert, condition := .corrected }) ∧
    (r.integrity = .uncorrectable → r.view t = { bytes := defaultRow t, inert := true, condition := .faulted })) ∧
  (∀ (s : State) (t : Table) (k : Bank) (n : Nat) (r : StoredRow) (e : FaultEntry),
    r = s.store.row t k n → e = { table := t, bank := k, row := n } →
    (r.integrity = .intact → s.afterRead t k n = s) ∧
    (r.integrity = .singleBit → s.afterRead t k n = { s with
      store := { s.store.writeRow t k n { r with integrity := .intact } with
        corrected := min 65535 (s.store.corrected + 1) } }) ∧
    (r.integrity = .uncorrectable → e ∈ s.store.faults → s.afterRead t k n = s) ∧
    (r.integrity = .uncorrectable → e ∉ s.store.faults → s.store.faults.length < 8 → s.afterRead t k n = State.raise
      { s with store := { s.store with faults := s.store.faults ++ [e] } } (.tableFault t k n)) ∧
    (r.integrity = .uncorrectable → e ∉ s.store.faults → 8 ≤ s.store.faults.length → s.afterRead t k n =
      { s with store := { s.store with overflow := true } })) ∧
  (∀ (st : TableStore) (t : Table) (k : Bank) (n : Nat) (v : StoredRow),
    (st.writeRow t k n v).faults = st.faults.filter (fun e => decide (e ≠ { table := t, bank := k, row := n })) ∧
    (n < ((st.table t).bank k).length → (st.writeRow t k n v).row t k n = v) ∧
    (∀ u m i, ¬ (t = u ∧ k = m ∧ n = i) → (st.writeRow t k n v).row u m i = st.row u m i)) ∧
  (∀ (st : TableStore) (t : Table) (k : Bank) (n : Nat) (r : Bytes) (rs : List Bytes),
    TableStore.writeRows t k n [] st = st ∧
    TableStore.writeRows t k n (r :: rs) st =
      TableStore.writeRows t k (n + 1) rs (st.writeRow t k n { bytes := r, inert := false, integrity := .intact }))

/-- COMMIT and SWAP (R108, R124 to R126, R59). COMMIT of a bad set is BAD_ARG, of one with a table LOADING, BROKEN or
COPYING BAD_STATE naming the first, of one with no table EDITED DONE with an empty set; else its EDITED tables are pending
and the slot is held. The swap, with no hold outstanding, flips the selects of the set, offers DONE with it, makes its
tables COPYING and tells their users in table order: POSTURE's row is read and evaluated, GESTURE's winning rules are
checked, PEN's refresh is due. A winning rule that changed or reads inert cancels an ACTIVE context and leaves a FINISHING
one without it; a CANDIDATE context has a recompute due. REVERT and COPY_END (R127, R128, R132; log entry 15). REVERT of a
bad set is BAD_ARG, of one with a table LOADING or COPYING BAD_STATE naming the first; else its tables are COPYING and the
slot is held. At the end of a table's copy every row but the locked ZONE rows has been copied from the active to the staging
bank in ascending order, each read with its usual effects and written as read, or with the inert row bytes and its mark set
where it reads inert; the table is CLEAN, and a REVERT none of whose tables is COPYING any more is answered DONE. The model's
choice: the pad's check before the panel's (log entry 13), the comparison of decoded fields (log entry 27), and no effect of
COPY_END of a table that is not COPYING (log entry 2). -/
def Obligations.CommitSwapAndRevert : Prop :=
  ((∀ (p : Bytes) (s : State) (ts : List Table), CommandReady s → p.length = 1 →
     ts = [Table.posture, .zone, .cls, .gesture, .pen].filter (fun t => (u8At p 0).testBit (tableCode t)) →
     ((u8At p 0 = 0 ∨ 32 ≤ u8At p 0) → exec (.commit p) s = .next (State.finish (s.answered .commit .badArg []))) ∧
     (u8At p 0 ≠ 0 → u8At p 0 < 32 →
       (∀ before t after, ts = before ++ t :: after →
         (s.store.status t = .loading ∨ s.store.status t = .broken ∨ s.store.status t = .copying) →
         (∀ u ∈ before, s.store.status u = .clean ∨ s.store.status u = .edited) →
         exec (.commit p) s = .next (State.finish (s.answered .commit .badState (putU8 (tableCode t))))) ∧
       ((∀ u ∈ ts, s.store.status u = .clean) →
         exec (.commit p) s = .next (State.finish (s.answered .commit .done [0x00#8]))) ∧
       ((∀ u ∈ ts, s.store.status u = .clean ∨ s.store.status u = .edited) → (∃ u ∈ ts, s.store.status u = .edited) →
         exec (.commit p) s = .next (State.finish { s with
           command := { s.command with slot := some Command.commit.code },
           store := { s.store with commit := some (ts.filter (fun t => decide (s.store.status t = .edited))) } })))) ∧
   (∀ (s : State) (ts : TableSet), s.inReset = false → s.store.commit = some ts → s.store.holds = 0 →
     exec .swap s = .next (State.finish (State.tellAll ts (State.respond
       { s with store := { TableStore.flipAll ts s.store with commit := none } } Command.commit.code .done
       (tableSetByte ts))))) ∧
   (∀ (st : TableStore) (ts : TableSet), ts.Nodup →
     (∀ t ∈ ts, (TableStore.flipAll ts st).table t = { st.table t with
       select := (match (st.table t).select with | .a => .b | .b => .a), status := .copying }) ∧
     (∀ t, t ∉ ts → (TableStore.flipAll ts st).table t = st.table t)) ∧
   (∀ (s : State) (ts : TableSet),
     State.tellAll [] s = s ∧ State.tellAll (.posture :: ts) s = State.tellAll ts s.consultPosture ∧
     State.tellAll (.zone :: ts) s = State.tellAll ts s ∧ State.tellAll (.cls :: ts) s = State.tellAll ts s ∧
     State.tellAll (.gesture :: ts) s = State.tellAll ts ((s.recheckGesture .pad).recheckGesture .panel) ∧
     State.tellAll (.pen :: ts) s = State.tellAll ts { s with pen := { s.pen with refreshDue := true } }) ∧
   (∀ (s : State) (f : Surface) (c : Context), c = (s.unit f).context →
     (∀ w, c.state = .active → c.winner = some w → s.recheckGesture f =
       if (s.rule w.row).inert = true ∨ s.rule w.row ≠ w.rule then
         State.offer ((s.readActive .gesture w.row).setContext f
             { c with state := .finishing, winner := none, candidates := [], anchor := none })
           [.data (surfaceStream f) (.gesture f w.rule.code .cancel w.rule.fingers (figure c.members).x (figure c.members).y
             c.progress)]
       else s.readActive .gesture w.row) ∧
     (∀ w, c.state = .finishing → c.winner = some w → s.recheckGesture f =
       if (s.rule w.row).inert = true ∨ s.rule w.row ≠ w.rule then
         (s.readActive .gesture w.row).setContext f { c with winner := none }
       else s.readActive .gesture w.row) ∧
     (c.state = .candidate → s.recheckGesture f = s.setContext f { c with recompute := true }) ∧
     ((c.state = .closed ∨ c.state = .gathering ∨ c.state = .passive) → s.recheckGesture f = s))) ∧
  ((∀ (p : Bytes) (s : State) (ts : List Table), CommandReady s → p.length = 1 →
     ts = [Table.posture, .zone, .cls, .gesture, .pen].filter (fun t => (u8At p 0).testBit (tableCode t)) →
     ((u8At p 0 = 0 ∨ 32 ≤ u8At p 0) → exec (.revert p) s = .next (State.finish (s.answered .revert .badArg []))) ∧
     (u8At p 0 ≠ 0 → u8At p 0 < 32 →
       (∀ before t after, ts = before ++ t :: after →
         (s.store.status t = .loading ∨ s.store.status t = .copying) →
         (∀ u ∈ before, s.store.status u ≠ .loading ∧ s.store.status u ≠ .copying) →
         exec (.revert p) s = .next (State.finish (s.answered .revert .badState (putU8 (tableCode t))))) ∧
       ((∀ u ∈ ts, s.store.status u ≠ .loading ∧ s.store.status u ≠ .copying) →
         exec (.revert p) s = .next (State.finish { s with
           command := { s.command with slot := some Command.revert.code, revert := some ts },
           store := TableStore.setStatuses .copying ts s.store })))) ∧
   (∀ (st : TableStore) (v : Staging) (ts : List Table) (t : Table),
     (t ∈ ts → (TableStore.setStatuses v ts st).table t = { st.table t with status := v }) ∧
     (t ∉ ts → (TableStore.setStatuses v ts st).table t = st.table t)) ∧
   (∀ (t : Table) (s u : State), Quiet s →
     (s.store.status t ≠ .copying → exec (.copyEnd t) s = .next s.finish) ∧
     (s.store.status t = .copying →
       u = State.copyRows t ((List.range (tableRows t)).filter (fun n => decide (¬ (t = .zone ∧ n % 24 < s.store.lock)))) s →
       (∀ ts, u.command.revert = some ts → (∀ k ∈ ts, k ≠ t → u.store.status k ≠ .copying) →
         exec (.copyEnd t) s = .next (State.finish (State.respond
           { u with store := u.store.setStatus t .clean, command := { u.command with revert := none } }
           Command.revert.code .done (tableSetByte ts)))) ∧
       ((u.command.revert = none ∨ ∃ ts, u.command.revert = some ts ∧ ∃ k ∈ ts, k ≠ t ∧ u.store.status k = .copying) →
         exec (.copyEnd t) s = .next (State.finish { u with store := u.store.setStatus t .clean })))) ∧
   (∀ (t : Table) (s : State) (n : Nat) (ns : List Nat) (r : StoredRow) (u : State),
     r = s.store.row t (s.store.active t) n → u = s.readActive t n →
     State.copyRows t [] s = s ∧
     ((r.integrity = .uncorrectable ∨ r.inert = true) → State.copyRows t (n :: ns) s = State.copyRows t ns
       { u with
         store := u.store.writeRow t (s.store.staging t) n { bytes := defaultRow t, inert := true, integrity := .intact } }) ∧
     (r.integrity ≠ .uncorrectable → r.inert = false → State.copyRows t (n :: ns) s = State.copyRows t ns
       { u with
         store := u.store.writeRow t (s.store.staging t) n { bytes := r.bytes, inert := false, integrity := .intact } })))

/-- READ_ROWS, VERIFY and VERIFY_PASS_END (R129, R130; log entries 14 and 16). READ_ROWS tests its codes and range, then a
COPYING staging bank; DONE carries the physical bank, the range and each row's condition and bytes, and every row has been
read in ascending order. VERIFY of a bad set is BAD_ARG, of one with a COPYING table TABLE_BUSY; else its pass runs and the
slot is held. At a pass's end its banks' rows have been read in order; VERIFY is answered with the faulted and the
corrected rows it counted, and the wake pass hands its count to the Mode Engine. That VERIFY_PASS_END with no pass in flight
has no effect is the model's choice, log entry 2. -/
def Obligations.ReadRowsAndVerify : Prop :=
  (∀ (p : Bytes) (s : State), CommandReady s → p.length = 4 →
    ((5 ≤ u8At p 0 ∨ 2 ≤ u8At p 1) → exec (.readRows p) s = .next (State.finish (s.answered .readRows .badArg []))) ∧
    (∀ t k limit, u8At p 0 = tableCode t →
      (u8At p 1 = 0 ∧ k = s.store.active t ∨ u8At p 1 = 1 ∧ k = s.store.staging t) →
      (limit = if t = .cls ∨ t = .gesture then 12 else 16) →
      ((u8At p 3 = 0 ∨ limit < u8At p 3 ∨ tableRows t < u8At p 2 + u8At p 3) →
        exec (.readRows p) s = .next (State.finish (s.answered .readRows .badArg []))) ∧
      (1 ≤ u8At p 3 → u8At p 3 ≤ limit → u8At p 2 + u8At p 3 ≤ tableRows t →
        (u8At p 1 = 1 → s.store.status t = .copying →
          exec (.readRows p) s = .next (State.finish (s.answered .readRows .tableBusy []))) ∧
        ((u8At p 1 = 0 ∨ s.store.status t ≠ .copying) → ∀ (ns : List Nat) (row : Nat → StoredRow),
          ns = (List.range (u8At p 3)).map (fun i => u8At p 2 + i) → (∀ n, row n = s.store.row t k n) →
          exec (.readRows p) s = .next (State.finish (State.respond
            (State.afterReads t k ns { s with command := { s.command with slot := some Command.readRows.code } })
            Command.readRows.code .done
            (putU8 (tableCode t) ++ putU8 k.code ++ putU8 (u8At p 2) ++ putU8 (u8At p 3) ++
              (ns.map (fun n => putU8 (match (row n).integrity, (row n).inert with
                | .intact, false => 0 | .singleBit, _ => 1 | .uncorrectable, _ => 2 | .intact, true => 3))).flatten ++
              (ns.map (fun n => if (row n).integrity = .uncorrectable then defaultRow t else (row n).bytes)).flatten))))))) ∧
  (∀ (p : Bytes) (s : State) (ts : List Table), CommandReady s → p.length = 1 →
    ts = [Table.posture, .zone, .cls, .gesture, .pen].filter (fun t => (u8At p 0).testBit (tableCode t)) →
    ((u8At p 0 = 0 ∨ 32 ≤ u8At p 0) → exec (.verify p) s = .next (State.finish (s.answered .verify .badArg []))) ∧
    (u8At p 0 ≠ 0 → u8At p 0 < 32 →
      ((∃ t ∈ ts, s.store.status t = .copying) →
        exec (.verify p) s = .next (State.finish (s.answered .verify .tableBusy []))) ∧
      ((∀ t ∈ ts, s.store.status t ≠ .copying) → exec (.verify p) s = .next (State.finish { s with
        command := { s.command with slot := some Command.verify.code },
        store := { s.store with verify := some (.command ts) } })))) ∧
  (∀ (s u : State) (banks : List (Table × Bank)) (count : Integrity → Nat), Quiet s →
    (∀ v, count v = (banks.map (fun b =>
      ((List.range (tableRows b.1)).filter (fun n => decide ((s.store.row b.1 b.2 n).integrity = v))).length)).sum) →
    u = banks.foldl (fun w b => State.afterReads b.1 b.2 (List.range (tableRows b.1)) w) s →
    (s.store.verify = none → exec .verifyPassEnd s = .next s.finish) ∧
    (∀ ts, s.store.verify = some (.command ts) → banks = ts.flatMap (fun t => [(t, Bank.a), (t, Bank.b)]) →
      exec .verifyPassEnd s = .next (State.finish (State.respond { u with store := { u.store with verify := none } }
        Command.verify.code .done (putU16 (count .uncorrectable) ++ putU16 (count .singleBit))))) ∧
    (s.store.verify = some .wake →
      banks = [Table.posture, .zone, .cls, .gesture, .pen].map (fun t => (t, s.store.active t)) →
      exec .verifyPassEnd s = .next (State.finish { u with
        store := { u.store with verify := none }, mode := { u.mode with wakeCount := some (count .uncorrectable) } })))

/-! ## The Command Unit and the host link -/

/-- The command slot (R160, R164, R169, R172). A CONTROL packet of any kind but SOFT_RESET taken with a command in progress,
or with a SOFT_RESET not yet in effect, is answered BUSY, dropped and counted at 48 records, and has no other effect: a
SET_POSTURE that finds a pending COMMIT in the slot among them, log entry 33. In a FREE slot a kind that names no command is
answered UNKNOWN, and a length the command does not accept BAD_ARG; each command has one length but LOAD_ROWS, and the kinds
are 11.4's. A command's row during a read or an ignored transfer has no effect: the model's choice, log entries 2 and 21. -/
def Obligations.CommandSlot : Prop :=
  (∀ (c : Instr) (cmd : Command) (k : BitVec 6) (s : State),
    ((∃ p, controlOf c = some (cmd, p) ∧ k = cmd.code) ∨ ∃ p, c = .unknown k p ∧ isCommandKind k = false) →
    (HostReady s → (s.command.slot ≠ none ∨ s.command.softReset = true) →
      (s.queue.records.length < 48 → exec c s = .next (State.finish
        { s with queue := s.queue.enter (.response { kind := k, status := .busy, result := [] }) })) ∧
      (48 ≤ s.queue.records.length → exec c s = .next (State.finish
        { s with queue := { s.queue with lost := min 65535 (s.queue.lost + 1) } }))) ∧
    (Quiet s → (s.port.transfer = .ignoring ∨ ∃ r standing out, s.port.transfer = .read r standing out) →
      exec c s = .next s.finish)) ∧
  (∀ k : BitVec 6, isCommandKind k = true ↔ ∃ c : Command, c.code = k) ∧
  (∀ c n, (c, n) ∈ [(Command.identify, 0x01#6), (Command.getStatus, 0x02#6), (Command.setMode, 0x03#6),
      (Command.setPosture, 0x04#6), (Command.setNotices, 0x05#6), (Command.loadBegin, 0x08#6), (Command.loadRows, 0x09#6),
      (Command.loadEnd, 0x0A#6), (Command.loadAbort, 0x0B#6), (Command.commit, 0x0C#6), (Command.revert, 0x0D#6),
      (Command.readRows, 0x0E#6), (Command.verify, 0x0F#6), (Command.lockZones, 0x10#6), (Command.clearCounters, 0x11#6),
      (Command.softReset, 0x3F#6)] → c.code = n) ∧
  (∀ (c : Instr) (cmd : Command) (p : Bytes) (s : State), controlOf c = some (cmd, p) → CommandReady s →
    cmd.lengthOk p = false → exec c s = .next (State.finish (s.answered cmd .badArg []))) ∧
  (∀ (k : BitVec 6) (p : Bytes) (s : State), CommandReady s → isCommandKind k = false → exec (.unknown k p) s = .next (State.finish (State.respond
    { s with command := { s.command with slot := some k } } k .unknown []))) ∧
  (∀ p : Bytes,
    (Command.identify.lengthOk p = true ↔ p.length = 0) ∧ (Command.getStatus.lengthOk p = true ↔ p.length = 0) ∧
    (Command.setMode.lengthOk p = true ↔ p.length = 3) ∧ (Command.setPosture.lengthOk p = true ↔ p.length = 1) ∧
    (Command.setNotices.lengthOk p = true ↔ p.length = 6) ∧ (Command.loadBegin.lengthOk p = true ↔ p.length = 3) ∧
    Command.loadRows.lengthOk p = true ∧ (Command.loadEnd.lengthOk p = true ↔ p.length = 4) ∧
    (Command.loadAbort.lengthOk p = true ↔ p.length = 0) ∧ (Command.commit.lengthOk p = true ↔ p.length = 1) ∧
    (Command.revert.lengthOk p = true ↔ p.length = 1) ∧ (Command.readRows.lengthOk p = true ↔ p.length = 4) ∧
    (Command.verify.lengthOk p = true ↔ p.length = 1) ∧ (Command.lockZones.lengthOk p = true ↔ p.length = 1) ∧
    (Command.clearCounters.lengthOk p = true ↔ p.length = 0))

/-- IDENTIFY, GET_STATUS, SET_POSTURE and LOCK_ZONES (R42, R48, R134, R171, R173). IDENTIFY answers the part as built, with
one revision in 1..255 for every state (log entry 6). GET_STATUS answers 102 bytes, each as section 11.4 lays it out, and
changes nothing else but the free value's count; with no transition the phase and cause bits, and with no load the last four
of its bytes, are free values, and a bit without a meaning in a byte not called flags is sent as 0: the model's choice, log
entries 7 and 8. SET_POSTURE of an index of 4 or more is BAD_ARG; else the select takes it, the row is read and evaluated, and
DONE carries the select and the enables. It does so in every state in which the slot is FREE, at once and on the active bank
as it stands, whatever commit is pending (R48). LOCK_ZONES tests its value, the ZONE table's status and the lock, and else
sets the lock. -/
def Obligations.IdentityStatusPostureAndLock : Prop :=
  (∃ revision : Byte, 1 ≤ revision.toNat ∧ ∀ s : State, CommandReady s →
    exec (.identify []) s = .next (State.finish (s.answered .identify .done
      [0x71#8, 0x2D#8, 0x24#8, 0x0E#8, revision, 20#8, 16#8, 5#8, 4#8, 96#8, 8#8, 32#8, 8#8, 24#8, 12#8, 12#8, 16#8, 16#8,
       12#8, 8#8, 48#8, 40#8, 32#8, 2#8]))) ∧
  (∀ s : State, CommandReady s → exec (.getStatus []) s = .next (State.finish (State.answered
      { s with freeCount := s.freeCount + 1 } .getStatus .done s.status))) ∧
  (∀ (s : State) (yes : Bool → Nat) (mode : Mode → Nat) (link : Link → Nat) (live : Surface → Nat) (context : Context → Nat)
     (table : Table → Nat) (resync : Option Nat → Bytes),
    s.store.faults.length ≤ 8 →
    (∀ b, yes b = if b = true then 1 else 0) →
    (∀ m, mode m = match m with | .sleep => 0 | .waking => 1 | .active => 2 | .idle => 3 | .doze => 4) →
    (∀ l : Link, link l = (match l.state with | .off => 0 | .up => 1 | .stalled => 2) +
      4 * (match l.commanded with | .off => 0 | .full => 1 | .reduced => 2 | .wakeOnTouch => 3 | .unknown => 7) +
      32 * yes l.scanChange) →
    (∀ f, live f = (s.tracks.slots.filterMap (fun o => o.bind (fun t =>
      if t.surface = f ∧ t.state = .live then some t else none))).length) →
    (∀ c : Context, context c = (match c.state with
      | .closed => 0 | .gathering => 1 | .candidate => 2 | .active => 3 | .passive => 4 | .finishing => 5) +
      16 * c.members.length) →
    (∀ t, table t = (match s.store.active t with | .a => 0 | .b => 1) + 2 * (match s.store.status t with
      | .clean => 0 | .loading => 1 | .edited => 2 | .broken => 3 | .copying => 4)) →
    (∀ r : Option Nat, resync r = putU8 (yes r.isSome) ++ putU16 (r.getD 0)) →
    ∃ (transition : Nat) (load : Bytes), load.length = 5 ∧
      (∀ t, s.mode.transition = some t → transition = mode t.target + 8 * (match t.phase with | .wake => 0 | .scan => 1) +
        16 * (match t.cause with | .command => 0 | .auto => 1 | .wake => 2)) ∧
      (s.mode.transition = none → ∃ free < 8, transition = 7 + 8 * free) ∧
      (∀ ld, s.store.load = some ld → load = putU8 (tableCode ld.table) ++ putU8 ld.first ++ putU8 (ld.count.getD 0) ++
        putU8 ld.cursor ++ putU8 ld.written) ∧
      (s.store.load = none → load.head? = some 0xFF#8) ∧
      s.status.length = 102 ∧
      s.status =
        putU8 (mode s.mode.mode) ++ putU8 (transition + 128 * yes s.mode.dwell.isSome) ++ putU8 s.mode.delay ++
        putU8 (yes s.mode.toggle) ++ putU8 s.command.select ++
        putU8 (yes s.command.enables.pad + 2 * yes s.command.enables.panel + 4 * yes s.command.enables.pen) ++
        putU8 (link s.padLink) ++ putU8 (link s.panelLink) ++ putU8 (live .pad) ++ putU8 (live .panel) ++
        putU8 (context s.pad.context) ++ putU8 (context s.panel.context) ++
        putU8 (match s.gesture.button with | .none => 0 | .left => 1 | .right => 2) ++
        putU8 (match s.pen.state with | .absent => 0 | .hover => 1 | .ink => 2 | .linger => 3) ++
        putU32 (match s.pen.followed with | some w => w.serial.toNat | none => 0) ++
        putU8 (match s.pen.followed with
          | some w => (match w.source with | .row n => n | .fallback => 8)
          | none => 0xFF) ++
        putU8 (yes s.pen.guard.active) ++ putU16 s.pen.guard.xMin ++ putU16 s.pen.guard.xMax ++ putU16 s.pen.guard.yMin ++
        putU16 s.pen.guard.yMax ++ putU8 s.pen.guard.activation ++ putU8 s.pen.guard.ink ++
        putU8 (table .posture) ++ putU8 (table .zone) ++ putU8 (table .cls) ++ putU8 (table .gesture) ++ putU8 (table .pen) ++
        load ++ putU8 s.store.lock ++ putU8 (s.store.faults.length + 128 * yes s.store.overflow) ++
        (s.store.faults.map (fun e => putU8 (tableCode e.table) ++ putU8 (match e.bank with | .a => 0 | .b => 1) ++
          putU8 e.row)).flatten ++ List.replicate (24 - 3 * s.store.faults.length) 0xFF#8 ++
        putU8 s.queue.records.length ++ putU16 s.queue.reportMask.toNat ++ putU32 s.queue.attentionMask.toNat ++
        resync s.queue.resyncPad ++ resync s.queue.resyncPanel ++ resync s.queue.resyncPen ++
        putU16 s.padLink.errors ++ putU16 s.panelLink.errors ++ putU16 s.pad.overruns ++ putU16 s.panel.overruns ++
        putU16 s.pen.overruns ++ putU16 s.pad.discards ++ putU16 s.panel.discards ++ putU16 s.store.corrected ++
        putU16 s.queue.lost ++ putU16 s.port.errors) ∧
  (∀ (p : Bytes) (s u : State), CommandReady s → p.length = 1 →
    (4 ≤ u8At p 0 → exec (.setPosture p) s = .next (State.finish (s.answered .setPosture .badArg []))) ∧
    (u8At p 0 < 4 → u = State.consultPosture
        { s with command := { s.command with slot := some Command.setPosture.code, select := u8At p 0 } } →
      exec (.setPosture p) s = .next (State.finish (u.respond Command.setPosture.code .done
        [BitVec.ofNat 8 u.command.select, BitVec.ofNat 8
          (u.command.enables.pad.toNat + 2 * u.command.enables.panel.toNat + 4 * u.command.enables.pen.toNat)])))) ∧
  (∀ (p : Bytes) (s : State), CommandReady s → p.length = 1 →
    (u8At p 0 ∉ [1, 2, 4, 8, 16, 24] →
      exec (.lockZones p) s = .next (State.finish (s.answered .lockZones .badArg []))) ∧
    (u8At p 0 ∈ [1, 2, 4, 8, 16, 24] →
      (s.store.status .zone ≠ .clean →
        exec (.lockZones p) s = .next (State.finish (s.answered .lockZones .badState []))) ∧
      (s.store.status .zone = .clean → u8At p 0 < s.store.lock →
        exec (.lockZones p) s = .next (State.finish (s.answered .lockZones .protectedZone []))) ∧
      (s.store.status .zone = .clean → s.store.lock ≤ u8At p 0 →
        exec (.lockZones p) s = .next (State.finish (State.answered
          { s with store := { s.store with lock := u8At p 0 } } .lockZones .done [BitVec.ofNat 8 (u8At p 0)])))))

/-- SET_NOTICES (R174): refused for its length or a busy slot alone; both masks take the payload's low 14 and low 18 settings
together, the line is re-evaluated at once, and DONE carries both masks as now in force, itself drawing attention whatever
the mask. Settings 0 to 3 of the attention mask are the classes PAD, PANEL, PEN and PASSUP, 4 to 17 the event kinds 0 to 13,
and a RESYNC record draws as its stream does. The report mask is what an event raised is judged by; with every attention
setting removed responses alone draw attention; every reset restores both masks. -/
def Obligations.SetNotices : Prop :=
  (∀ (p : Bytes) (s : State),
    (CommandReady s → p.length ≠ 6 → exec (.setNotices p) s = .next (State.finish (s.answered .setNotices .badArg []))) ∧
    (HostReady s → (s.command.slot ≠ none ∨ s.command.softReset = true) → exec (.setNotices p) s =
      .next (State.finish { s with queue := s.queue.offerBusy Command.setNotices.code }))) ∧
  (∀ (p : Bytes) (s : State) (report : BitVec 14) (attention : BitVec 18), CommandReady s → p.length = 6 →
    (∀ i < 14, report.getLsbD i = (u16At p 0).testBit i) → (∀ i < 18, attention.getLsbD i = (u32At p 2).testBit i) →
    exec (.setNotices p) s = .next (State.finish (State.answered
      { s with queue := { s.queue with
          reportMask := report, attentionMask := attention, attn := s.queue.records.any (Record.draws attention) } }
      .setNotices .done (putU16 report.toNat ++ putU32 attention.toNat)))) ∧
  (∀ (s : State) (e : Event), s.queue.reportMask.getLsbD e.kind = false → s.raise e = s) ∧
  (∀ (r : Record) (x : Response) (mask : BitVec 18), Record.draws mask (.response x) = true ∧
    (Record.draws 0#18 r = true ↔ ∃ y, r = .response y)) ∧
  (∀ mask : BitVec 18,
    (∀ dx dy b, Record.draws mask (.pointer dx dy b) = mask.getLsbD 0) ∧
    (∀ time es, Record.draws mask (.contactFrame time es) = mask.getLsbD 1) ∧
    (∀ st q, Record.draws mask (.pen st q) = mask.getLsbD 2) ∧
    (∀ code ph n x y pr, Record.draws mask (.gesture .pad code ph n x y pr) = mask.getLsbD 0 ∧
      Record.draws mask (.gesture .panel code ph n x y pr) = mask.getLsbD 1) ∧
    (∀ l k p, Record.draws mask (.passUp l k p) = mask.getLsbD 3) ∧
    (∀ e code, (Record.payload (.event e)).head? = some code → code.toNat < 14 ∧
      Record.draws mask (.event e) = mask.getLsbD (4 + code.toNat)) ∧
    (∀ n b code, Record.draws mask (.resync n (.pad b code)) = mask.getLsbD 0) ∧
    (∀ n time code cs, Record.draws mask (.resync n (.panel time code cs)) = mask.getLsbD 1) ∧
    (∀ n st q, Record.draws mask (.resync n (.pen st q)) = mask.getLsbD 2)) ∧
  (∀ (c : Instr) (s t : State),
    (c = .softResetEffect ∧ s.inReset = false ∧ s.isDue .softReset = true ∨ c = .resetNAssert ∨ c = .powerOnReset) →
    exec c s = .next t → t.queue.reportMask = BitVec.allOnes 14 ∧ t.queue.attentionMask = BitVec.allOnes 18)

/-- CLEAR_COUNTERS (R175): the ten counters of GET_STATUS are 0 and the overflow flag is clear before its answer, and nothing
else changes. -/
def Obligations.ClearCounters : Prop :=
  ∀ s : State, CommandReady s → exec (.clearCounters []) s = .next (State.finish (State.answered
    { s with
      padLink := { s.padLink with errors := 0 }, panelLink := { s.panelLink with errors := 0 },
      pad := { s.pad with overruns := 0, discards := 0 }, panel := { s.panel with overruns := 0, discards := 0 },
      pen := { s.pen with overruns := 0 }, store := { s.store with corrected := 0, overflow := false },
      queue := { s.queue with lost := 0 }, port := { s.port with errors := 0 } }
    .clearCounters .done []))

/-- The host's transfers (R161, R164 to R168). The transfer byte chooses WRITE, READ with the head record or EMPTY fixed, or
IGNORING. A read's end removes the record if it still stands at the head and its packet was clocked out whole, re-evaluating
the line, and leaves the queue otherwise; MISO carries the packet's bytes in order and fill after them, and fill in every
other form. A transfer of another first byte, a short or corrupt write and a packet of the unused channel are each counted
and raise LINK_ERROR with their reason; a good packet, with or without fill after it, goes to the consumer its channel and
kind name, on its own row and on every row that spells it. A transfer found in progress in WRITE or IGNORING is the one that
its row ends, if the bytes agree; a row that cannot come in the port's state has no effect. Rows as whole transfers, and
those that cannot come, are the model's choice, log entries 2, 20 and 21. -/
def Obligations.HostTransfers : Prop :=
  (∀ (s : State) (first : Byte), s.choose first =
    if first = 0x5A#8 then .write [] else if first = 0xA5#8 then .read s.queue.records.head? true 0 else .ignoring) ∧
  (∀ s : State, HostReady s → exec .readTransferTaken s = .next (State.finish
    { s with port := { s.port with transfer := .read s.queue.records.head? true 0 } })) ∧
  (∀ (clocked : Nat) (s : State), Quiet s →
    (∀ r out, s.port.transfer = .read (some r) true out → (readPacket (some r)).length ≤ out + clocked →
      exec (.readTransferEnd clocked) s = .next (State.finish
        { s with
          port := { s.port with transfer := .none },
          queue := { s.queue with
            records := s.queue.records.tail, attn := s.queue.records.tail.any (Record.draws s.queue.attentionMask) } })) ∧
    (∀ r standing out, s.port.transfer = .read r standing out →
      (r = none ∨ standing = false ∨ out + clocked < (readPacket r).length) →
      exec (.readTransferEnd clocked) s = .next (State.finish { s with port := { s.port with transfer := .none } })) ∧
    ((∀ r standing out, s.port.transfer ≠ .read r standing out) → exec (.readTransferEnd clocked) s = .next s.finish)) ∧
  (∀ (p : HostPort) (r : Option Record) (standing : Bool) (out : Nat),
    (p.transfer = .read r standing out →
      (∀ b, (readPacket r)[out]? = some b → p.miso = b) ∧ ((readPacket r).length ≤ out → p.miso = 0xFF#8)) ∧
    ((∀ r' standing' out', p.transfer ≠ .read r' standing' out') → p.miso = 0xFF#8)) ∧
  (∀ (first : Byte) (s : State), first ≠ 0x5A#8 → first ≠ 0xA5#8 →
    (HostReady s ∨ (Quiet s ∧ s.port.transfer = .ignoring)) → exec (.ignoredTransfer first) s = .next (State.finish (State.raise
      { s with port := { transfer := .none, errors := min 65535 (s.port.errors + 1) } } (.linkError .badFirst)))) ∧
  (∀ (first : Byte) (s : State), Quiet s →
    (first = 0x5A#8 ∨ first = 0xA5#8 ∨ (s.port.transfer ≠ .none ∧ s.port.transfer ≠ .ignoring)) →
    exec (.ignoredTransfer first) s = .next s.finish) ∧
  (∀ (bs : Bytes) (s : State) (fault : LinkErrorReason → State), Quiet s →
    (s.port.transfer = .none ∨ ∃ got rest, s.port.transfer = .write got ∧ bs = got ++ rest) →
    (∀ why, fault why = State.raise
      { s with port := { transfer := .none, errors := min 65535 (s.port.errors + 1) } } (.linkError why)) →
    ((bs.length < 2 ∨ bs.length < u8At bs 1 + 3) →
      exec (.discardedWriteTransfer bs) s = .next (fault (.short bs.length)).finish) ∧
    (2 ≤ bs.length → u8At bs 1 + 3 ≤ bs.length → crc8 (bs.take (u8At bs 1 + 2)) ≠ byteAt bs (u8At bs 1 + 2) →
      exec (.discardedWriteTransfer bs) s = .next (fault .crc).finish) ∧
    (2 ≤ bs.length → u8At bs 1 + 3 ≤ bs.length → crc8 (bs.take (u8At bs 1 + 2)) = byteAt bs (u8At bs 1 + 2) →
      channelOf bs = 3#2 → exec (.discardedWriteTransfer bs) s = .next (fault .channel).finish) ∧
    (∀ c ch k p fill, hostPacketOf c = some (ch, k, p) → p.length ≤ 255 → bs = packetBytes ch k p ++ fill →
      exec (.discardedWriteTransfer bs) s = exec c { s with port := { s.port with transfer := .none } })) ∧
  (∀ (s : State) (k : BitVec 6) (p : Bytes),
    (∀ l, s.takePacket (linkChannel l) k p = s.passDown l { kind := k, payload := p }) ∧
    s.takePacket 3#2 k p = State.raise
      { s with port := { s.port with errors := min 65535 (s.port.errors + 1) } } (.linkError .channel) ∧
    s.takePacket 0#2 Command.softReset.code p = s.takeSoftReset ∧
    (∀ c, c ≠ .softReset → s.takePacket 0#2 c.code p = s.takeControl c p (c.run p)) ∧
    ((∀ c : Command, c.code ≠ k) → s.takePacket 0#2 k p = s.takeUnknown k)) ∧
  (∀ (c : Instr) (ch : BitVec 2) (k : BitVec 6) (p : Bytes) (s : State), hostPacketOf c = some (ch, k, p) →
    (HostReady s → exec c s = .next (s.takePacket ch k p).finish) ∧
    (∀ got, Quiet s → s.port.transfer = .write got →
      (got <+: packetBytes ch k p ∨ packetBytes ch k p <+: got →
        exec c s = exec c { s with port := { s.port with transfer := .none } }) ∧
      (¬ (got <+: packetBytes ch k p ∨ packetBytes ch k p <+: got) → exec c s = .next s.finish))) ∧
  (∀ (bs : Bytes) (s : State), Quiet s →
    (s.port.transfer ≠ .none → exec .readTransferTaken s = .next s.finish) ∧
    (s.port.transfer ≠ .none → (∀ got, s.port.transfer ≠ .write got) →
      exec (.discardedWriteTransfer bs) s = .next s.finish) ∧
    (∀ got, s.port.transfer = .write got → ¬ got <+: bs → exec (.discardedWriteTransfer bs) s = .next s.finish)) ∧
  (∀ (ch : BitVec 2) (k : BitVec 6) (p : Bytes) (head : Byte), head.toNat = 64 * ch.toNat + k.toNat →
    packetBytes ch k p = head :: BitVec.ofNat 8 p.length :: p ++ [crc8 (head :: BitVec.ofNat 8 p.length :: p)]) ∧
  (∀ (n : Nat) (i : Int), putU8 n = [BitVec.ofNat 8 n] ∧ putU16 n = [BitVec.ofNat 8 n, BitVec.ofNat 8 (n / 256)] ∧
    putU32 n = [BitVec.ofNat 8 n, BitVec.ofNat 8 (n / 256), BitVec.ofNat 8 (n / 65536), BitVec.ofNat 8 (n / 16777216)] ∧
    putS16 i = putU16 (i % 65536).toNat) ∧
  (readPacket none = packetBytes 0#2 0x00#6 [] ∧
    ∀ (packet : BitVec 6 → Bytes → Bytes) (yes : Bool → Nat) (surface : Surface → Nat) (buttons : Buttons → Bytes)
      (penState : PenState → Nat) (tail : PenSample → Bytes),
    (∀ k p, packet k p = packetBytes 0#2 k p) → (∀ b, yes b = if b = true then 1 else 0) →
    surface .pad = 0 → surface .panel = 1 →
    (∀ b : Buttons, buttons b = putU8 (yes b.left + 2 * yes b.right + 4 * yes b.middle)) →
    (∀ st, penState st = match st with | .absent => 0 | .hover => 1 | .ink => 2 | .linger => 3) →
    (∀ q : PenSample, tail q = putU8 (yes q.barrel + 2 * yes q.eraser) ++ putU16 q.x ++ putU16 q.y ++ putU16 q.pressure ++
      [q.tiltX, q.tiltY] ++ putU8 q.hover) →
    (∀ time es, readPacket (some (.contactFrame time es)) = packet 0x01#6 (putU16 time.toNat ++ putU8 es.length ++
      (es.map (fun e => putU8 e.id ++ putU8 (match e.phase with | .down => 0 | .move => 1 | .up => 2 | .cancel => 3) ++
        putU16 e.x ++ putU16 e.y ++ putU8 e.area)).flatten)) ∧
    (∀ dx dy b, readPacket (some (.pointer dx dy b)) = packet 0x02#6 (putS16 dx ++ putS16 dy ++ buttons b)) ∧
    (∀ st q, readPacket (some (.pen st q)) =
      packet 0x03#6 (putU16 q.time.toNat ++ putU8 (penState st) ++ tail q)) ∧
    (∀ f code ph n x y pr, readPacket (some (.gesture f code ph n x y pr)) = packet 0x04#6 (putU8 (surface f) ++
      putU8 code ++ putU8 (match ph with | .instant => 0 | .begin => 1 | .update => 2 | .finish => 3 | .cancel => 4) ++
      putU8 n ++ putU16 x ++ putU16 y ++ putS16 pr)) ∧
    (∀ e, readPacket (some (.event e)) = packet 0x05#6 (Record.payload (.event e))) ∧
    (∀ x : Response, readPacket (some (.response x)) = packet 0x06#6 (putU8 x.kind.toNat ++ putU8 (match x.status with
      | .done => 0 | .busy => 1 | .badArg => 2 | .badState => 3 | .protectedZone => 4 | .tableBusy => 5 | .crcFail => 6
      | .short => 7 | .aborted => 8 | .unknown => 9) ++ x.result)) ∧
    (∀ l k p, readPacket (some (.passUp l k p)) = packet 0x07#6 (putU8 (surface l + 1) ++ putU8 k.toNat ++ p)) ∧
    (∀ n b code, readPacket (some (.resync n (.pad b code))) =
      packet 0x08#6 (putU8 0 ++ putU16 n ++ buttons b ++ putU8 code)) ∧
    (∀ n time code cs, readPacket (some (.resync n (.panel time code cs))) = packet 0x08#6 (putU8 1 ++ putU16 n ++
      putU16 time.toNat ++ putU8 code ++ putU8 cs.length ++
      (cs.map (fun c => putU8 c.id ++ putU16 c.x ++ putU16 c.y ++ putU8 c.area)).flatten)) ∧
    (∀ n st q, readPacket (some (.resync n (.pen st (some q)))) = packet 0x08#6 (putU8 2 ++ putU16 n ++ putU8 (penState st) ++
      putU8 1 ++ putU16 q.time.toNat ++ tail q)) ∧
    (∀ n st, readPacket (some (.resync n (.pen st none))) = packet 0x08#6 (putU8 2 ++ putU16 n ++ putU8 (penState st) ++
      List.replicate 13 0x00#8))) ∧
  (∀ (l : Surface) (ch : BitVec 2), ((l = .pad → ch = 1#2) ∧ (l = .panel → ch = 2#2)) →
    (∀ h : HostPacket, sentPacket l (.host h) = packetBytes ch h.kind h.payload) ∧
    (∀ v n, (v, n) ∈ [(Setting.off, 0), (Setting.full, 1), (Setting.reduced, 2), (Setting.wakeOnTouch, 3)] →
      sentPacket l (.part (.scanControl v)) = packetBytes ch 0x10#6 (putU8 n)) ∧
    sentPacket l (.part .idQuery) = packetBytes ch 0x11#6 [])

/-! ## Resets -/

/-- The resets (R18, R39, R43, R73, R94, R115, R136, R148 to R150, R163, R168, R172). SOFT_RESET is taken at its taking; once no
copy and no transmission is in flight it takes effect: every block is as after reset but for what the Table Store and the
diag toggle keep and a transfer in progress, a read's record no longer standing; its response is the queue's only record, and
row 0 gives the enables. RESET_N in any state leaves the reset values but for the locked ZONE rows and the lock, and holds; a
transfer in progress is cut off; its release gives the enables. Power-on leaves the reset values. The model's choice: the
response before the read of row 0 (log entry 10), a release out of reset without effect (log entry 2), power-on as one step
(log entry 26). The model's own two fields are no state of the part (log entries 1 and 7). -/
def Obligations.Resets : Prop :=
  (∀ (p : Bytes) (s : State), HostReady s → exec (.softReset p) s = .next (State.finish
    { s with command := { s.command with softReset := true } })) ∧
  (∀ (s u : State) (st : TableStore), s.inReset = false → s.command.softReset = true →
    (∀ t, s.store.status t ≠ .copying) → s.padLink.sending = none → s.panelLink.sending = none →
    (∀ t, st.table t = { s.store.table t with
      status := if s.store.status t = .loading then .broken else s.store.status t }) →
    (st.holds = 0 ∧ st.load = none ∧ st.commit = none ∧ st.corrected = 0 ∧ st.verify = none ∧ st.lock = s.store.lock ∧
      st.faults = s.store.faults ∧ st.overflow = s.store.overflow) →
    u = { State.reset with
      store := st,
      mode := { ModeEngine.reset with toggle := s.mode.toggle },
      queue := { ReportQueue.reset with
        records := [.response { kind := Command.softReset.code, status := .done, result := [] }], attn := true },
      port := { errors := 0, transfer := match s.port.transfer with
        | .none => .none
        | .write got => .write got
        | .read r _ out => .read r false out
        | .ignoring => .ignoring },
      freeCount := s.freeCount, pending := s.pending } →
    exec .softResetEffect s = .next (State.finish { u.readPosture with
      command := { u.command with enables := u.postureRow.enables } })) ∧
  (∀ (s : State) (kept : Bank → List StoredRow),
    (∀ k, kept k = (List.range 96).map (fun n => if n % 24 < s.store.lock then s.store.row .zone k n
      else { bytes := List.replicate 12 0x00#8, inert := false, integrity := .intact })) →
    exec .resetNAssert s = .next { State.reset with
      store := { TableStore.reset with
        zone := { TableState.reset .zone with bankA := kept .a, bankB := kept .b }, lock := s.store.lock },
      inReset := true, freeCount := s.freeCount, pending := s.pending }) ∧
  (∀ s : State,
    (s.inReset = true → exec .resetNRelease s = .next { s.readPosture with
      command := { s.command with enables := s.postureRow.enables }, inReset := false }) ∧
    (s.inReset = false → exec .resetNRelease s = .next s) ∧
    exec .powerOnReset s = .next { State.reset with freeCount := s.freeCount, pending := s.pending })

/-- The invariants hold at State.reset: of the Report Queue, the Track Table, the Pen Record, the frame holds and the Row
Fault List. -/
def Obligations.InvariantsAtReset : Prop :=
  QueueInv State.reset.queue ∧ TracksInv State.reset.tracks ∧ PenInv State.reset.pen ∧ HoldsInv State.reset ∧
    FaultsInv State.reset.store

/-- Every step keeps the Row Fault List at 8 entries or fewer, without duplicates (R133). -/
def Obligations.RowFaultListKept : Prop :=
  ∀ s t : State, FaultsInv s.store → step s = .next t → FaultsInv t.store
end

