-- ==== Sys2Proof/Laws/State.lean ====
section
/-! SUPPORT. What each named update of the state leaves alone, field by field, and what the link, unit and table
accessors read after it. -/

namespace Sys2Proof.Machine

@[simp] theorem State.setLink_pad (s : State) (l : Surface) (v : Link) : (s.setLink l v).pad = s.pad := rfl
@[simp] theorem State.setLink_panel (s : State) (l : Surface) (v : Link) : (s.setLink l v).panel = s.panel := rfl
@[simp] theorem State.setLink_tracks (s : State) (l : Surface) (v : Link) : (s.setLink l v).tracks = s.tracks := rfl
@[simp] theorem State.setLink_pen (s : State) (l : Surface) (v : Link) : (s.setLink l v).pen = s.pen := rfl
@[simp] theorem State.setLink_palm (s : State) (l : Surface) (v : Link) : (s.setLink l v).palm = s.palm := rfl
@[simp] theorem State.setLink_gesture (s : State) (l : Surface) (v : Link) : (s.setLink l v).gesture = s.gesture := rfl
@[simp] theorem State.setLink_store (s : State) (l : Surface) (v : Link) : (s.setLink l v).store = s.store := rfl
@[simp] theorem State.setLink_mode (s : State) (l : Surface) (v : Link) : (s.setLink l v).mode = s.mode := rfl
@[simp] theorem State.setLink_command (s : State) (l : Surface) (v : Link) : (s.setLink l v).command = s.command := rfl
@[simp] theorem State.setLink_queue (s : State) (l : Surface) (v : Link) : (s.setLink l v).queue = s.queue := rfl
@[simp] theorem State.setLink_port (s : State) (l : Surface) (v : Link) : (s.setLink l v).port = s.port := rfl
@[simp] theorem State.setLink_inReset (s : State) (l : Surface) (v : Link) : (s.setLink l v).inReset = s.inReset := rfl
@[simp] theorem State.setLink_freeCount (s : State) (l : Surface) (v : Link) : (s.setLink l v).freeCount = s.freeCount := rfl
@[simp] theorem State.setLink_pending (s : State) (l : Surface) (v : Link) : (s.setLink l v).pending = s.pending := rfl

@[simp] theorem State.setUnit_padLink (s : State) (f : Surface) (v : SurfaceUnit) : (s.setUnit f v).padLink = s.padLink := rfl
@[simp] theorem State.setUnit_panelLink (s : State) (f : Surface) (v : SurfaceUnit) : (s.setUnit f v).panelLink = s.panelLink := rfl
@[simp] theorem State.setUnit_tracks (s : State) (f : Surface) (v : SurfaceUnit) : (s.setUnit f v).tracks = s.tracks := rfl
@[simp] theorem State.setUnit_pen (s : State) (f : Surface) (v : SurfaceUnit) : (s.setUnit f v).pen = s.pen := rfl
@[simp] theorem State.setUnit_palm (s : State) (f : Surface) (v : SurfaceUnit) : (s.setUnit f v).palm = s.palm := rfl
@[simp] theorem State.setUnit_gesture (s : State) (f : Surface) (v : SurfaceUnit) : (s.setUnit f v).gesture = s.gesture := rfl
@[simp] theorem State.setUnit_store (s : State) (f : Surface) (v : SurfaceUnit) : (s.setUnit f v).store = s.store := rfl
@[simp] theorem State.setUnit_mode (s : State) (f : Surface) (v : SurfaceUnit) : (s.setUnit f v).mode = s.mode := rfl
@[simp] theorem State.setUnit_command (s : State) (f : Surface) (v : SurfaceUnit) : (s.setUnit f v).command = s.command := rfl
@[simp] theorem State.setUnit_queue (s : State) (f : Surface) (v : SurfaceUnit) : (s.setUnit f v).queue = s.queue := rfl
@[simp] theorem State.setUnit_port (s : State) (f : Surface) (v : SurfaceUnit) : (s.setUnit f v).port = s.port := rfl
@[simp] theorem State.setUnit_inReset (s : State) (f : Surface) (v : SurfaceUnit) : (s.setUnit f v).inReset = s.inReset := rfl
@[simp] theorem State.setUnit_freeCount (s : State) (f : Surface) (v : SurfaceUnit) : (s.setUnit f v).freeCount = s.freeCount := rfl
@[simp] theorem State.setUnit_pending (s : State) (f : Surface) (v : SurfaceUnit) : (s.setUnit f v).pending = s.pending := rfl

@[simp] theorem State.setContext_padLink (s : State) (f : Surface) (c : Context) : (s.setContext f c).padLink = s.padLink := rfl
@[simp] theorem State.setContext_panelLink (s : State) (f : Surface) (c : Context) : (s.setContext f c).panelLink = s.panelLink := rfl
@[simp] theorem State.setContext_tracks (s : State) (f : Surface) (c : Context) : (s.setContext f c).tracks = s.tracks := rfl
@[simp] theorem State.setContext_pen (s : State) (f : Surface) (c : Context) : (s.setContext f c).pen = s.pen := rfl
@[simp] theorem State.setContext_palm (s : State) (f : Surface) (c : Context) : (s.setContext f c).palm = s.palm := rfl
@[simp] theorem State.setContext_gesture (s : State) (f : Surface) (c : Context) : (s.setContext f c).gesture = s.gesture := rfl
@[simp] theorem State.setContext_store (s : State) (f : Surface) (c : Context) : (s.setContext f c).store = s.store := rfl
@[simp] theorem State.setContext_mode (s : State) (f : Surface) (c : Context) : (s.setContext f c).mode = s.mode := rfl
@[simp] theorem State.setContext_command (s : State) (f : Surface) (c : Context) : (s.setContext f c).command = s.command := rfl
@[simp] theorem State.setContext_queue (s : State) (f : Surface) (c : Context) : (s.setContext f c).queue = s.queue := rfl
@[simp] theorem State.setContext_port (s : State) (f : Surface) (c : Context) : (s.setContext f c).port = s.port := rfl
@[simp] theorem State.setContext_inReset (s : State) (f : Surface) (c : Context) : (s.setContext f c).inReset = s.inReset := rfl
@[simp] theorem State.setContext_freeCount (s : State) (f : Surface) (c : Context) : (s.setContext f c).freeCount = s.freeCount := rfl
@[simp] theorem State.setContext_pending (s : State) (f : Surface) (c : Context) : (s.setContext f c).pending = s.pending := rfl

@[simp] theorem State.withEnables_padLink (s : State) (e : Enables) : (s.withEnables e).padLink = s.padLink := rfl
@[simp] theorem State.withEnables_panelLink (s : State) (e : Enables) : (s.withEnables e).panelLink = s.panelLink := rfl
@[simp] theorem State.withEnables_pad (s : State) (e : Enables) : (s.withEnables e).pad = s.pad := rfl
@[simp] theorem State.withEnables_panel (s : State) (e : Enables) : (s.withEnables e).panel = s.panel := rfl
@[simp] theorem State.withEnables_tracks (s : State) (e : Enables) : (s.withEnables e).tracks = s.tracks := rfl
@[simp] theorem State.withEnables_pen (s : State) (e : Enables) : (s.withEnables e).pen = s.pen := rfl
@[simp] theorem State.withEnables_palm (s : State) (e : Enables) : (s.withEnables e).palm = s.palm := rfl
@[simp] theorem State.withEnables_gesture (s : State) (e : Enables) : (s.withEnables e).gesture = s.gesture := rfl
@[simp] theorem State.withEnables_store (s : State) (e : Enables) : (s.withEnables e).store = s.store := rfl
@[simp] theorem State.withEnables_mode (s : State) (e : Enables) : (s.withEnables e).mode = s.mode := rfl
@[simp] theorem State.withEnables_queue (s : State) (e : Enables) : (s.withEnables e).queue = s.queue := rfl
@[simp] theorem State.withEnables_port (s : State) (e : Enables) : (s.withEnables e).port = s.port := rfl
@[simp] theorem State.withEnables_inReset (s : State) (e : Enables) : (s.withEnables e).inReset = s.inReset := rfl
@[simp] theorem State.withEnables_freeCount (s : State) (e : Enables) : (s.withEnables e).freeCount = s.freeCount := rfl
@[simp] theorem State.withEnables_pending (s : State) (e : Enables) : (s.withEnables e).pending = s.pending := rfl

@[simp] theorem State.setSlots_padLink (s : State) (slots : List (Option Track)) : (s.setSlots slots).padLink = s.padLink := rfl
@[simp] theorem State.setSlots_panelLink (s : State) (slots : List (Option Track)) : (s.setSlots slots).panelLink = s.panelLink := rfl
@[simp] theorem State.setSlots_pad (s : State) (slots : List (Option Track)) : (s.setSlots slots).pad = s.pad := rfl
@[simp] theorem State.setSlots_panel (s : State) (slots : List (Option Track)) : (s.setSlots slots).panel = s.panel := rfl
@[simp] theorem State.setSlots_pen (s : State) (slots : List (Option Track)) : (s.setSlots slots).pen = s.pen := rfl
@[simp] theorem State.setSlots_palm (s : State) (slots : List (Option Track)) : (s.setSlots slots).palm = s.palm := rfl
@[simp] theorem State.setSlots_gesture (s : State) (slots : List (Option Track)) : (s.setSlots slots).gesture = s.gesture := rfl
@[simp] theorem State.setSlots_store (s : State) (slots : List (Option Track)) : (s.setSlots slots).store = s.store := rfl
@[simp] theorem State.setSlots_mode (s : State) (slots : List (Option Track)) : (s.setSlots slots).mode = s.mode := rfl
@[simp] theorem State.setSlots_command (s : State) (slots : List (Option Track)) : (s.setSlots slots).command = s.command := rfl
@[simp] theorem State.setSlots_queue (s : State) (slots : List (Option Track)) : (s.setSlots slots).queue = s.queue := rfl
@[simp] theorem State.setSlots_port (s : State) (slots : List (Option Track)) : (s.setSlots slots).port = s.port := rfl
@[simp] theorem State.setSlots_inReset (s : State) (slots : List (Option Track)) : (s.setSlots slots).inReset = s.inReset := rfl
@[simp] theorem State.setSlots_freeCount (s : State) (slots : List (Option Track)) : (s.setSlots slots).freeCount = s.freeCount := rfl
@[simp] theorem State.setSlots_pending (s : State) (slots : List (Option Track)) : (s.setSlots slots).pending = s.pending := rfl

@[simp] theorem State.offer_padLink (s : State) (g : List Offer) : (s.offer g).padLink = s.padLink := rfl
@[simp] theorem State.offer_panelLink (s : State) (g : List Offer) : (s.offer g).panelLink = s.panelLink := rfl
@[simp] theorem State.offer_pad (s : State) (g : List Offer) : (s.offer g).pad = s.pad := rfl
@[simp] theorem State.offer_panel (s : State) (g : List Offer) : (s.offer g).panel = s.panel := rfl
@[simp] theorem State.offer_tracks (s : State) (g : List Offer) : (s.offer g).tracks = s.tracks := rfl
@[simp] theorem State.offer_pen (s : State) (g : List Offer) : (s.offer g).pen = s.pen := rfl
@[simp] theorem State.offer_palm (s : State) (g : List Offer) : (s.offer g).palm = s.palm := rfl
@[simp] theorem State.offer_gesture (s : State) (g : List Offer) : (s.offer g).gesture = s.gesture := rfl
@[simp] theorem State.offer_store (s : State) (g : List Offer) : (s.offer g).store = s.store := rfl
@[simp] theorem State.offer_mode (s : State) (g : List Offer) : (s.offer g).mode = s.mode := rfl
@[simp] theorem State.offer_command (s : State) (g : List Offer) : (s.offer g).command = s.command := rfl
@[simp] theorem State.offer_port (s : State) (g : List Offer) : (s.offer g).port = s.port := rfl
@[simp] theorem State.offer_inReset (s : State) (g : List Offer) : (s.offer g).inReset = s.inReset := rfl
@[simp] theorem State.offer_freeCount (s : State) (g : List Offer) : (s.offer g).freeCount = s.freeCount := rfl
@[simp] theorem State.offer_pending (s : State) (g : List Offer) : (s.offer g).pending = s.pending := rfl

@[simp] theorem State.raise_padLink (s : State) (e : Event) : (s.raise e).padLink = s.padLink := rfl
@[simp] theorem State.raise_panelLink (s : State) (e : Event) : (s.raise e).panelLink = s.panelLink := rfl
@[simp] theorem State.raise_pad (s : State) (e : Event) : (s.raise e).pad = s.pad := rfl
@[simp] theorem State.raise_panel (s : State) (e : Event) : (s.raise e).panel = s.panel := rfl
@[simp] theorem State.raise_tracks (s : State) (e : Event) : (s.raise e).tracks = s.tracks := rfl
@[simp] theorem State.raise_pen (s : State) (e : Event) : (s.raise e).pen = s.pen := rfl
@[simp] theorem State.raise_palm (s : State) (e : Event) : (s.raise e).palm = s.palm := rfl
@[simp] theorem State.raise_gesture (s : State) (e : Event) : (s.raise e).gesture = s.gesture := rfl
@[simp] theorem State.raise_store (s : State) (e : Event) : (s.raise e).store = s.store := rfl
@[simp] theorem State.raise_mode (s : State) (e : Event) : (s.raise e).mode = s.mode := rfl
@[simp] theorem State.raise_command (s : State) (e : Event) : (s.raise e).command = s.command := rfl
@[simp] theorem State.raise_port (s : State) (e : Event) : (s.raise e).port = s.port := rfl
@[simp] theorem State.raise_inReset (s : State) (e : Event) : (s.raise e).inReset = s.inReset := rfl
@[simp] theorem State.raise_freeCount (s : State) (e : Event) : (s.raise e).freeCount = s.freeCount := rfl
@[simp] theorem State.raise_pending (s : State) (e : Event) : (s.raise e).pending = s.pending := rfl

@[simp] theorem State.respond_padLink (s : State) (k : BitVec 6) (v : Status) (r : Bytes) : (s.respond k v r).padLink = s.padLink := rfl
@[simp] theorem State.respond_panelLink (s : State) (k : BitVec 6) (v : Status) (r : Bytes) : (s.respond k v r).panelLink = s.panelLink := rfl
@[simp] theorem State.respond_pad (s : State) (k : BitVec 6) (v : Status) (r : Bytes) : (s.respond k v r).pad = s.pad := rfl
@[simp] theorem State.respond_panel (s : State) (k : BitVec 6) (v : Status) (r : Bytes) : (s.respond k v r).panel = s.panel := rfl
@[simp] theorem State.respond_tracks (s : State) (k : BitVec 6) (v : Status) (r : Bytes) : (s.respond k v r).tracks = s.tracks := rfl
@[simp] theorem State.respond_pen (s : State) (k : BitVec 6) (v : Status) (r : Bytes) : (s.respond k v r).pen = s.pen := rfl
@[simp] theorem State.respond_palm (s : State) (k : BitVec 6) (v : Status) (r : Bytes) : (s.respond k v r).palm = s.palm := rfl
@[simp] theorem State.respond_gesture (s : State) (k : BitVec 6) (v : Status) (r : Bytes) : (s.respond k v r).gesture = s.gesture := rfl
@[simp] theorem State.respond_store (s : State) (k : BitVec 6) (v : Status) (r : Bytes) : (s.respond k v r).store = s.store := rfl
@[simp] theorem State.respond_mode (s : State) (k : BitVec 6) (v : Status) (r : Bytes) : (s.respond k v r).mode = s.mode := rfl
@[simp] theorem State.respond_port (s : State) (k : BitVec 6) (v : Status) (r : Bytes) : (s.respond k v r).port = s.port := rfl
@[simp] theorem State.respond_inReset (s : State) (k : BitVec 6) (v : Status) (r : Bytes) : (s.respond k v r).inReset = s.inReset := rfl
@[simp] theorem State.respond_freeCount (s : State) (k : BitVec 6) (v : Status) (r : Bytes) : (s.respond k v r).freeCount = s.freeCount := rfl
@[simp] theorem State.respond_pending (s : State) (k : BitVec 6) (v : Status) (r : Bytes) : (s.respond k v r).pending = s.pending := rfl

@[simp] theorem State.offerPassUp_padLink (s : State) (l : Surface) (k : BitVec 6) (p : Bytes) : (s.offerPassUp l k p).padLink = s.padLink := rfl
@[simp] theorem State.offerPassUp_panelLink (s : State) (l : Surface) (k : BitVec 6) (p : Bytes) : (s.offerPassUp l k p).panelLink = s.panelLink := rfl
@[simp] theorem State.offerPassUp_pad (s : State) (l : Surface) (k : BitVec 6) (p : Bytes) : (s.offerPassUp l k p).pad = s.pad := rfl
@[simp] theorem State.offerPassUp_panel (s : State) (l : Surface) (k : BitVec 6) (p : Bytes) : (s.offerPassUp l k p).panel = s.panel := rfl
@[simp] theorem State.offerPassUp_tracks (s : State) (l : Surface) (k : BitVec 6) (p : Bytes) : (s.offerPassUp l k p).tracks = s.tracks := rfl
@[simp] theorem State.offerPassUp_pen (s : State) (l : Surface) (k : BitVec 6) (p : Bytes) : (s.offerPassUp l k p).pen = s.pen := rfl
@[simp] theorem State.offerPassUp_palm (s : State) (l : Surface) (k : BitVec 6) (p : Bytes) : (s.offerPassUp l k p).palm = s.palm := rfl
@[simp] theorem State.offerPassUp_gesture (s : State) (l : Surface) (k : BitVec 6) (p : Bytes) : (s.offerPassUp l k p).gesture = s.gesture := rfl
@[simp] theorem State.offerPassUp_store (s : State) (l : Surface) (k : BitVec 6) (p : Bytes) : (s.offerPassUp l k p).store = s.store := rfl
@[simp] theorem State.offerPassUp_mode (s : State) (l : Surface) (k : BitVec 6) (p : Bytes) : (s.offerPassUp l k p).mode = s.mode := rfl
@[simp] theorem State.offerPassUp_command (s : State) (l : Surface) (k : BitVec 6) (p : Bytes) : (s.offerPassUp l k p).command = s.command := rfl
@[simp] theorem State.offerPassUp_port (s : State) (l : Surface) (k : BitVec 6) (p : Bytes) : (s.offerPassUp l k p).port = s.port := rfl
@[simp] theorem State.offerPassUp_inReset (s : State) (l : Surface) (k : BitVec 6) (p : Bytes) : (s.offerPassUp l k p).inReset = s.inReset := rfl
@[simp] theorem State.offerPassUp_freeCount (s : State) (l : Surface) (k : BitVec 6) (p : Bytes) : (s.offerPassUp l k p).freeCount = s.freeCount := rfl
@[simp] theorem State.offerPassUp_pending (s : State) (l : Surface) (k : BitVec 6) (p : Bytes) : (s.offerPassUp l k p).pending = s.pending := rfl

@[simp] theorem State.afterRead_padLink (s : State) (t : Table) (k : Bank) (n : Nat) : (s.afterRead t k n).padLink = s.padLink := rfl
@[simp] theorem State.afterRead_panelLink (s : State) (t : Table) (k : Bank) (n : Nat) : (s.afterRead t k n).panelLink = s.panelLink := rfl
@[simp] theorem State.afterRead_pad (s : State) (t : Table) (k : Bank) (n : Nat) : (s.afterRead t k n).pad = s.pad := rfl
@[simp] theorem State.afterRead_panel (s : State) (t : Table) (k : Bank) (n : Nat) : (s.afterRead t k n).panel = s.panel := rfl
@[simp] theorem State.afterRead_tracks (s : State) (t : Table) (k : Bank) (n : Nat) : (s.afterRead t k n).tracks = s.tracks := rfl
@[simp] theorem State.afterRead_pen (s : State) (t : Table) (k : Bank) (n : Nat) : (s.afterRead t k n).pen = s.pen := rfl
@[simp] theorem State.afterRead_palm (s : State) (t : Table) (k : Bank) (n : Nat) : (s.afterRead t k n).palm = s.palm := rfl
@[simp] theorem State.afterRead_gesture (s : State) (t : Table) (k : Bank) (n : Nat) : (s.afterRead t k n).gesture = s.gesture := rfl
@[simp] theorem State.afterRead_mode (s : State) (t : Table) (k : Bank) (n : Nat) : (s.afterRead t k n).mode = s.mode := rfl
@[simp] theorem State.afterRead_command (s : State) (t : Table) (k : Bank) (n : Nat) : (s.afterRead t k n).command = s.command := rfl
@[simp] theorem State.afterRead_port (s : State) (t : Table) (k : Bank) (n : Nat) : (s.afterRead t k n).port = s.port := rfl
@[simp] theorem State.afterRead_inReset (s : State) (t : Table) (k : Bank) (n : Nat) : (s.afterRead t k n).inReset = s.inReset := rfl
@[simp] theorem State.afterRead_freeCount (s : State) (t : Table) (k : Bank) (n : Nat) : (s.afterRead t k n).freeCount = s.freeCount := rfl
@[simp] theorem State.afterRead_pending (s : State) (t : Table) (k : Bank) (n : Nat) : (s.afterRead t k n).pending = s.pending := rfl

@[simp] theorem State.readActive_padLink (s : State) (t : Table) (n : Nat) : (s.readActive t n).padLink = s.padLink := rfl
@[simp] theorem State.readActive_panelLink (s : State) (t : Table) (n : Nat) : (s.readActive t n).panelLink = s.panelLink := rfl
@[simp] theorem State.readActive_pad (s : State) (t : Table) (n : Nat) : (s.readActive t n).pad = s.pad := rfl
@[simp] theorem State.readActive_panel (s : State) (t : Table) (n : Nat) : (s.readActive t n).panel = s.panel := rfl
@[simp] theorem State.readActive_tracks (s : State) (t : Table) (n : Nat) : (s.readActive t n).tracks = s.tracks := rfl
@[simp] theorem State.readActive_pen (s : State) (t : Table) (n : Nat) : (s.readActive t n).pen = s.pen := rfl
@[simp] theorem State.readActive_palm (s : State) (t : Table) (n : Nat) : (s.readActive t n).palm = s.palm := rfl
@[simp] theorem State.readActive_gesture (s : State) (t : Table) (n : Nat) : (s.readActive t n).gesture = s.gesture := rfl
@[simp] theorem State.readActive_mode (s : State) (t : Table) (n : Nat) : (s.readActive t n).mode = s.mode := rfl
@[simp] theorem State.readActive_command (s : State) (t : Table) (n : Nat) : (s.readActive t n).command = s.command := rfl
@[simp] theorem State.readActive_port (s : State) (t : Table) (n : Nat) : (s.readActive t n).port = s.port := rfl
@[simp] theorem State.readActive_inReset (s : State) (t : Table) (n : Nat) : (s.readActive t n).inReset = s.inReset := rfl
@[simp] theorem State.readActive_freeCount (s : State) (t : Table) (n : Nat) : (s.readActive t n).freeCount = s.freeCount := rfl
@[simp] theorem State.readActive_pending (s : State) (t : Table) (n : Nat) : (s.readActive t n).pending = s.pending := rfl

@[simp] theorem State.readPosture_padLink (s : State) : (s.readPosture).padLink = s.padLink := rfl
@[simp] theorem State.readPosture_panelLink (s : State) : (s.readPosture).panelLink = s.panelLink := rfl
@[simp] theorem State.readPosture_pad (s : State) : (s.readPosture).pad = s.pad := rfl
@[simp] theorem State.readPosture_panel (s : State) : (s.readPosture).panel = s.panel := rfl
@[simp] theorem State.readPosture_tracks (s : State) : (s.readPosture).tracks = s.tracks := rfl
@[simp] theorem State.readPosture_pen (s : State) : (s.readPosture).pen = s.pen := rfl
@[simp] theorem State.readPosture_palm (s : State) : (s.readPosture).palm = s.palm := rfl
@[simp] theorem State.readPosture_gesture (s : State) : (s.readPosture).gesture = s.gesture := rfl
@[simp] theorem State.readPosture_mode (s : State) : (s.readPosture).mode = s.mode := rfl
@[simp] theorem State.readPosture_command (s : State) : (s.readPosture).command = s.command := rfl
@[simp] theorem State.readPosture_port (s : State) : (s.readPosture).port = s.port := rfl
@[simp] theorem State.readPosture_inReset (s : State) : (s.readPosture).inReset = s.inReset := rfl
@[simp] theorem State.readPosture_freeCount (s : State) : (s.readPosture).freeCount = s.freeCount := rfl
@[simp] theorem State.readPosture_pending (s : State) : (s.readPosture).pending = s.pending := rfl

@[simp] theorem State.finish_pad (s : State) : (s.finish).pad = s.pad := rfl
@[simp] theorem State.finish_panel (s : State) : (s.finish).panel = s.panel := rfl
@[simp] theorem State.finish_tracks (s : State) : (s.finish).tracks = s.tracks := rfl
@[simp] theorem State.finish_pen (s : State) : (s.finish).pen = s.pen := rfl
@[simp] theorem State.finish_palm (s : State) : (s.finish).palm = s.palm := rfl
@[simp] theorem State.finish_gesture (s : State) : (s.finish).gesture = s.gesture := rfl
@[simp] theorem State.finish_store (s : State) : (s.finish).store = s.store := rfl
@[simp] theorem State.finish_command (s : State) : (s.finish).command = s.command := rfl
@[simp] theorem State.finish_queue (s : State) : (s.finish).queue = s.queue := rfl
@[simp] theorem State.finish_port (s : State) : (s.finish).port = s.port := rfl
@[simp] theorem State.finish_inReset (s : State) : (s.finish).inReset = s.inReset := rfl
@[simp] theorem State.finish_freeCount (s : State) : (s.finish).freeCount = s.freeCount := rfl
@[simp] theorem State.finish_pending (s : State) : (s.finish).pending = s.pending := rfl

@[simp] theorem State.withPending_padLink (s : State) (q : List Instr) : (s.withPending q).padLink = s.padLink := rfl
@[simp] theorem State.withPending_panelLink (s : State) (q : List Instr) : (s.withPending q).panelLink = s.panelLink := rfl
@[simp] theorem State.withPending_pad (s : State) (q : List Instr) : (s.withPending q).pad = s.pad := rfl
@[simp] theorem State.withPending_panel (s : State) (q : List Instr) : (s.withPending q).panel = s.panel := rfl
@[simp] theorem State.withPending_tracks (s : State) (q : List Instr) : (s.withPending q).tracks = s.tracks := rfl
@[simp] theorem State.withPending_pen (s : State) (q : List Instr) : (s.withPending q).pen = s.pen := rfl
@[simp] theorem State.withPending_palm (s : State) (q : List Instr) : (s.withPending q).palm = s.palm := rfl
@[simp] theorem State.withPending_gesture (s : State) (q : List Instr) : (s.withPending q).gesture = s.gesture := rfl
@[simp] theorem State.withPending_store (s : State) (q : List Instr) : (s.withPending q).store = s.store := rfl
@[simp] theorem State.withPending_mode (s : State) (q : List Instr) : (s.withPending q).mode = s.mode := rfl
@[simp] theorem State.withPending_command (s : State) (q : List Instr) : (s.withPending q).command = s.command := rfl
@[simp] theorem State.withPending_queue (s : State) (q : List Instr) : (s.withPending q).queue = s.queue := rfl
@[simp] theorem State.withPending_port (s : State) (q : List Instr) : (s.withPending q).port = s.port := rfl
@[simp] theorem State.withPending_inReset (s : State) (q : List Instr) : (s.withPending q).inReset = s.inReset := rfl
@[simp] theorem State.withPending_freeCount (s : State) (q : List Instr) : (s.withPending q).freeCount = s.freeCount := rfl

@[simp] theorem State.occupy_padLink (s : State) (k : BitVec 6) : (s.occupy k).padLink = s.padLink := rfl
@[simp] theorem State.occupy_panelLink (s : State) (k : BitVec 6) : (s.occupy k).panelLink = s.panelLink := rfl
@[simp] theorem State.occupy_pad (s : State) (k : BitVec 6) : (s.occupy k).pad = s.pad := rfl
@[simp] theorem State.occupy_panel (s : State) (k : BitVec 6) : (s.occupy k).panel = s.panel := rfl
@[simp] theorem State.occupy_tracks (s : State) (k : BitVec 6) : (s.occupy k).tracks = s.tracks := rfl
@[simp] theorem State.occupy_pen (s : State) (k : BitVec 6) : (s.occupy k).pen = s.pen := rfl
@[simp] theorem State.occupy_palm (s : State) (k : BitVec 6) : (s.occupy k).palm = s.palm := rfl
@[simp] theorem State.occupy_gesture (s : State) (k : BitVec 6) : (s.occupy k).gesture = s.gesture := rfl
@[simp] theorem State.occupy_store (s : State) (k : BitVec 6) : (s.occupy k).store = s.store := rfl
@[simp] theorem State.occupy_mode (s : State) (k : BitVec 6) : (s.occupy k).mode = s.mode := rfl
@[simp] theorem State.occupy_queue (s : State) (k : BitVec 6) : (s.occupy k).queue = s.queue := rfl
@[simp] theorem State.occupy_port (s : State) (k : BitVec 6) : (s.occupy k).port = s.port := rfl
@[simp] theorem State.occupy_inReset (s : State) (k : BitVec 6) : (s.occupy k).inReset = s.inReset := rfl
@[simp] theorem State.occupy_freeCount (s : State) (k : BitVec 6) : (s.occupy k).freeCount = s.freeCount := rfl
@[simp] theorem State.occupy_pending (s : State) (k : BitVec 6) : (s.occupy k).pending = s.pending := rfl

@[simp] theorem State.emptySense_padLink (s : State) (f : Surface) : (s.emptySense f).padLink = s.padLink := rfl
@[simp] theorem State.emptySense_panelLink (s : State) (f : Surface) : (s.emptySense f).panelLink = s.panelLink := rfl
@[simp] theorem State.emptySense_tracks (s : State) (f : Surface) : (s.emptySense f).tracks = s.tracks := rfl
@[simp] theorem State.emptySense_pen (s : State) (f : Surface) : (s.emptySense f).pen = s.pen := rfl
@[simp] theorem State.emptySense_palm (s : State) (f : Surface) : (s.emptySense f).palm = s.palm := rfl
@[simp] theorem State.emptySense_gesture (s : State) (f : Surface) : (s.emptySense f).gesture = s.gesture := rfl
@[simp] theorem State.emptySense_store (s : State) (f : Surface) : (s.emptySense f).store = s.store := rfl
@[simp] theorem State.emptySense_mode (s : State) (f : Surface) : (s.emptySense f).mode = s.mode := rfl
@[simp] theorem State.emptySense_command (s : State) (f : Surface) : (s.emptySense f).command = s.command := rfl
@[simp] theorem State.emptySense_queue (s : State) (f : Surface) : (s.emptySense f).queue = s.queue := rfl
@[simp] theorem State.emptySense_port (s : State) (f : Surface) : (s.emptySense f).port = s.port := rfl
@[simp] theorem State.emptySense_inReset (s : State) (f : Surface) : (s.emptySense f).inReset = s.inReset := rfl
@[simp] theorem State.emptySense_freeCount (s : State) (f : Surface) : (s.emptySense f).freeCount = s.freeCount := rfl
@[simp] theorem State.emptySense_pending (s : State) (f : Surface) : (s.emptySense f).pending = s.pending := rfl

@[simp] theorem State.emptyPen_padLink (s : State) : (s.emptyPen).padLink = s.padLink := rfl
@[simp] theorem State.emptyPen_panelLink (s : State) : (s.emptyPen).panelLink = s.panelLink := rfl
@[simp] theorem State.emptyPen_pad (s : State) : (s.emptyPen).pad = s.pad := rfl
@[simp] theorem State.emptyPen_panel (s : State) : (s.emptyPen).panel = s.panel := rfl
@[simp] theorem State.emptyPen_tracks (s : State) : (s.emptyPen).tracks = s.tracks := rfl
@[simp] theorem State.emptyPen_palm (s : State) : (s.emptyPen).palm = s.palm := rfl
@[simp] theorem State.emptyPen_gesture (s : State) : (s.emptyPen).gesture = s.gesture := rfl
@[simp] theorem State.emptyPen_store (s : State) : (s.emptyPen).store = s.store := rfl
@[simp] theorem State.emptyPen_mode (s : State) : (s.emptyPen).mode = s.mode := rfl
@[simp] theorem State.emptyPen_command (s : State) : (s.emptyPen).command = s.command := rfl
@[simp] theorem State.emptyPen_queue (s : State) : (s.emptyPen).queue = s.queue := rfl
@[simp] theorem State.emptyPen_port (s : State) : (s.emptyPen).port = s.port := rfl
@[simp] theorem State.emptyPen_inReset (s : State) : (s.emptyPen).inReset = s.inReset := rfl
@[simp] theorem State.emptyPen_freeCount (s : State) : (s.emptyPen).freeCount = s.freeCount := rfl
@[simp] theorem State.emptyPen_pending (s : State) : (s.emptyPen).pending = s.pending := rfl

@[simp] theorem State.linkError_pad (s : State) (l : Surface) : (s.linkError l).pad = s.pad := rfl
@[simp] theorem State.linkError_panel (s : State) (l : Surface) : (s.linkError l).panel = s.panel := rfl
@[simp] theorem State.linkError_tracks (s : State) (l : Surface) : (s.linkError l).tracks = s.tracks := rfl
@[simp] theorem State.linkError_pen (s : State) (l : Surface) : (s.linkError l).pen = s.pen := rfl
@[simp] theorem State.linkError_palm (s : State) (l : Surface) : (s.linkError l).palm = s.palm := rfl
@[simp] theorem State.linkError_gesture (s : State) (l : Surface) : (s.linkError l).gesture = s.gesture := rfl
@[simp] theorem State.linkError_store (s : State) (l : Surface) : (s.linkError l).store = s.store := rfl
@[simp] theorem State.linkError_mode (s : State) (l : Surface) : (s.linkError l).mode = s.mode := rfl
@[simp] theorem State.linkError_command (s : State) (l : Surface) : (s.linkError l).command = s.command := rfl
@[simp] theorem State.linkError_queue (s : State) (l : Surface) : (s.linkError l).queue = s.queue := rfl
@[simp] theorem State.linkError_port (s : State) (l : Surface) : (s.linkError l).port = s.port := rfl
@[simp] theorem State.linkError_inReset (s : State) (l : Surface) : (s.linkError l).inReset = s.inReset := rfl
@[simp] theorem State.linkError_freeCount (s : State) (l : Surface) : (s.linkError l).freeCount = s.freeCount := rfl
@[simp] theorem State.linkError_pending (s : State) (l : Surface) : (s.linkError l).pending = s.pending := rfl

@[simp] theorem State.forcedEndEffect_padLink (s : State) (f : Surface) : (s.forcedEndEffect f).padLink = s.padLink := rfl
@[simp] theorem State.forcedEndEffect_panelLink (s : State) (f : Surface) : (s.forcedEndEffect f).panelLink = s.panelLink := rfl
@[simp] theorem State.forcedEndEffect_pen (s : State) (f : Surface) : (s.forcedEndEffect f).pen = s.pen := rfl
@[simp] theorem State.forcedEndEffect_palm (s : State) (f : Surface) : (s.forcedEndEffect f).palm = s.palm := rfl
@[simp] theorem State.forcedEndEffect_store (s : State) (f : Surface) : (s.forcedEndEffect f).store = s.store := rfl
@[simp] theorem State.forcedEndEffect_mode (s : State) (f : Surface) : (s.forcedEndEffect f).mode = s.mode := rfl
@[simp] theorem State.forcedEndEffect_command (s : State) (f : Surface) : (s.forcedEndEffect f).command = s.command := rfl
@[simp] theorem State.forcedEndEffect_queue (s : State) (f : Surface) : (s.forcedEndEffect f).queue = s.queue := rfl
@[simp] theorem State.forcedEndEffect_port (s : State) (f : Surface) : (s.forcedEndEffect f).port = s.port := rfl
@[simp] theorem State.forcedEndEffect_inReset (s : State) (f : Surface) : (s.forcedEndEffect f).inReset = s.inReset := rfl
@[simp] theorem State.forcedEndEffect_freeCount (s : State) (f : Surface) : (s.forcedEndEffect f).freeCount = s.freeCount := rfl
@[simp] theorem State.forcedEndEffect_pending (s : State) (f : Surface) : (s.forcedEndEffect f).pending = s.pending := rfl

@[simp] theorem State.takeForcedEnd_padLink (s : State) (f : Surface) : (s.takeForcedEnd f).padLink = s.padLink := rfl
@[simp] theorem State.takeForcedEnd_panelLink (s : State) (f : Surface) : (s.takeForcedEnd f).panelLink = s.panelLink := rfl
@[simp] theorem State.takeForcedEnd_pen (s : State) (f : Surface) : (s.takeForcedEnd f).pen = s.pen := rfl
@[simp] theorem State.takeForcedEnd_palm (s : State) (f : Surface) : (s.takeForcedEnd f).palm = s.palm := rfl
@[simp] theorem State.takeForcedEnd_store (s : State) (f : Surface) : (s.takeForcedEnd f).store = s.store := rfl
@[simp] theorem State.takeForcedEnd_mode (s : State) (f : Surface) : (s.takeForcedEnd f).mode = s.mode := rfl
@[simp] theorem State.takeForcedEnd_command (s : State) (f : Surface) : (s.takeForcedEnd f).command = s.command := rfl
@[simp] theorem State.takeForcedEnd_port (s : State) (f : Surface) : (s.takeForcedEnd f).port = s.port := rfl
@[simp] theorem State.takeForcedEnd_inReset (s : State) (f : Surface) : (s.takeForcedEnd f).inReset = s.inReset := rfl
@[simp] theorem State.takeForcedEnd_freeCount (s : State) (f : Surface) : (s.takeForcedEnd f).freeCount = s.freeCount := rfl
@[simp] theorem State.takeForcedEnd_pending (s : State) (f : Surface) : (s.takeForcedEnd f).pending = s.pending := rfl

@[simp] theorem State.takeDrop_padLink (s : State) : (s.takeDrop).padLink = s.padLink := rfl
@[simp] theorem State.takeDrop_panelLink (s : State) : (s.takeDrop).panelLink = s.panelLink := rfl
@[simp] theorem State.takeDrop_pad (s : State) : (s.takeDrop).pad = s.pad := rfl
@[simp] theorem State.takeDrop_panel (s : State) : (s.takeDrop).panel = s.panel := rfl
@[simp] theorem State.takeDrop_tracks (s : State) : (s.takeDrop).tracks = s.tracks := rfl
@[simp] theorem State.takeDrop_palm (s : State) : (s.takeDrop).palm = s.palm := rfl
@[simp] theorem State.takeDrop_gesture (s : State) : (s.takeDrop).gesture = s.gesture := rfl
@[simp] theorem State.takeDrop_store (s : State) : (s.takeDrop).store = s.store := rfl
@[simp] theorem State.takeDrop_mode (s : State) : (s.takeDrop).mode = s.mode := rfl
@[simp] theorem State.takeDrop_command (s : State) : (s.takeDrop).command = s.command := rfl
@[simp] theorem State.takeDrop_port (s : State) : (s.takeDrop).port = s.port := rfl
@[simp] theorem State.takeDrop_inReset (s : State) : (s.takeDrop).inReset = s.inReset := rfl
@[simp] theorem State.takeDrop_freeCount (s : State) : (s.takeDrop).freeCount = s.freeCount := rfl
@[simp] theorem State.takeDrop_pending (s : State) : (s.takeDrop).pending = s.pending := rfl

@[simp] theorem State.enterOff_pad (s : State) (l : Surface) : (s.enterOff l).pad = s.pad := rfl
@[simp] theorem State.enterOff_panel (s : State) (l : Surface) : (s.enterOff l).panel = s.panel := rfl
@[simp] theorem State.enterOff_tracks (s : State) (l : Surface) : (s.enterOff l).tracks = s.tracks := rfl
@[simp] theorem State.enterOff_pen (s : State) (l : Surface) : (s.enterOff l).pen = s.pen := rfl
@[simp] theorem State.enterOff_palm (s : State) (l : Surface) : (s.enterOff l).palm = s.palm := rfl
@[simp] theorem State.enterOff_gesture (s : State) (l : Surface) : (s.enterOff l).gesture = s.gesture := rfl
@[simp] theorem State.enterOff_store (s : State) (l : Surface) : (s.enterOff l).store = s.store := rfl
@[simp] theorem State.enterOff_mode (s : State) (l : Surface) : (s.enterOff l).mode = s.mode := rfl
@[simp] theorem State.enterOff_command (s : State) (l : Surface) : (s.enterOff l).command = s.command := rfl
@[simp] theorem State.enterOff_port (s : State) (l : Surface) : (s.enterOff l).port = s.port := rfl
@[simp] theorem State.enterOff_inReset (s : State) (l : Surface) : (s.enterOff l).inReset = s.inReset := rfl
@[simp] theorem State.enterOff_freeCount (s : State) (l : Surface) : (s.enterOff l).freeCount = s.freeCount := rfl
@[simp] theorem State.enterOff_pending (s : State) (l : Surface) : (s.enterOff l).pending = s.pending := rfl

@[simp] theorem State.recover_pad (s : State) (l : Surface) : (s.recover l).pad = s.pad := rfl
@[simp] theorem State.recover_panel (s : State) (l : Surface) : (s.recover l).panel = s.panel := rfl
@[simp] theorem State.recover_tracks (s : State) (l : Surface) : (s.recover l).tracks = s.tracks := rfl
@[simp] theorem State.recover_pen (s : State) (l : Surface) : (s.recover l).pen = s.pen := rfl
@[simp] theorem State.recover_palm (s : State) (l : Surface) : (s.recover l).palm = s.palm := rfl
@[simp] theorem State.recover_gesture (s : State) (l : Surface) : (s.recover l).gesture = s.gesture := rfl
@[simp] theorem State.recover_store (s : State) (l : Surface) : (s.recover l).store = s.store := rfl
@[simp] theorem State.recover_mode (s : State) (l : Surface) : (s.recover l).mode = s.mode := rfl
@[simp] theorem State.recover_command (s : State) (l : Surface) : (s.recover l).command = s.command := rfl
@[simp] theorem State.recover_port (s : State) (l : Surface) : (s.recover l).port = s.port := rfl
@[simp] theorem State.recover_inReset (s : State) (l : Surface) : (s.recover l).inReset = s.inReset := rfl
@[simp] theorem State.recover_freeCount (s : State) (l : Surface) : (s.recover l).freeCount = s.freeCount := rfl
@[simp] theorem State.recover_pending (s : State) (l : Surface) : (s.recover l).pending = s.pending := rfl

@[simp] theorem State.restartWatch_pad (s : State) (l : Surface) : (s.restartWatch l).pad = s.pad := rfl
@[simp] theorem State.restartWatch_panel (s : State) (l : Surface) : (s.restartWatch l).panel = s.panel := rfl
@[simp] theorem State.restartWatch_tracks (s : State) (l : Surface) : (s.restartWatch l).tracks = s.tracks := rfl
@[simp] theorem State.restartWatch_pen (s : State) (l : Surface) : (s.restartWatch l).pen = s.pen := rfl
@[simp] theorem State.restartWatch_palm (s : State) (l : Surface) : (s.restartWatch l).palm = s.palm := rfl
@[simp] theorem State.restartWatch_gesture (s : State) (l : Surface) : (s.restartWatch l).gesture = s.gesture := rfl
@[simp] theorem State.restartWatch_store (s : State) (l : Surface) : (s.restartWatch l).store = s.store := rfl
@[simp] theorem State.restartWatch_mode (s : State) (l : Surface) : (s.restartWatch l).mode = s.mode := rfl
@[simp] theorem State.restartWatch_command (s : State) (l : Surface) : (s.restartWatch l).command = s.command := rfl
@[simp] theorem State.restartWatch_queue (s : State) (l : Surface) : (s.restartWatch l).queue = s.queue := rfl
@[simp] theorem State.restartWatch_port (s : State) (l : Surface) : (s.restartWatch l).port = s.port := rfl
@[simp] theorem State.restartWatch_inReset (s : State) (l : Surface) : (s.restartWatch l).inReset = s.inReset := rfl
@[simp] theorem State.restartWatch_freeCount (s : State) (l : Surface) : (s.restartWatch l).freeCount = s.freeCount := rfl
@[simp] theorem State.restartWatch_pending (s : State) (l : Surface) : (s.restartWatch l).pending = s.pending := rfl

@[simp] theorem State.putSense_padLink (s : State) (f : Surface) (fr : SenseFrame) : (s.putSense f fr).padLink = s.padLink := rfl
@[simp] theorem State.putSense_panelLink (s : State) (f : Surface) (fr : SenseFrame) : (s.putSense f fr).panelLink = s.panelLink := rfl
@[simp] theorem State.putSense_tracks (s : State) (f : Surface) (fr : SenseFrame) : (s.putSense f fr).tracks = s.tracks := rfl
@[simp] theorem State.putSense_pen (s : State) (f : Surface) (fr : SenseFrame) : (s.putSense f fr).pen = s.pen := rfl
@[simp] theorem State.putSense_palm (s : State) (f : Surface) (fr : SenseFrame) : (s.putSense f fr).palm = s.palm := rfl
@[simp] theorem State.putSense_gesture (s : State) (f : Surface) (fr : SenseFrame) : (s.putSense f fr).gesture = s.gesture := rfl
@[simp] theorem State.putSense_store (s : State) (f : Surface) (fr : SenseFrame) : (s.putSense f fr).store = s.store := rfl
@[simp] theorem State.putSense_mode (s : State) (f : Surface) (fr : SenseFrame) : (s.putSense f fr).mode = s.mode := rfl
@[simp] theorem State.putSense_command (s : State) (f : Surface) (fr : SenseFrame) : (s.putSense f fr).command = s.command := rfl
@[simp] theorem State.putSense_queue (s : State) (f : Surface) (fr : SenseFrame) : (s.putSense f fr).queue = s.queue := rfl
@[simp] theorem State.putSense_port (s : State) (f : Surface) (fr : SenseFrame) : (s.putSense f fr).port = s.port := rfl
@[simp] theorem State.putSense_inReset (s : State) (f : Surface) (fr : SenseFrame) : (s.putSense f fr).inReset = s.inReset := rfl
@[simp] theorem State.putSense_freeCount (s : State) (f : Surface) (fr : SenseFrame) : (s.putSense f fr).freeCount = s.freeCount := rfl
@[simp] theorem State.putSense_pending (s : State) (f : Surface) (fr : SenseFrame) : (s.putSense f fr).pending = s.pending := rfl

@[simp] theorem State.putPen_padLink (s : State) (fr : PenFrame) : (s.putPen fr).padLink = s.padLink := rfl
@[simp] theorem State.putPen_panelLink (s : State) (fr : PenFrame) : (s.putPen fr).panelLink = s.panelLink := rfl
@[simp] theorem State.putPen_pad (s : State) (fr : PenFrame) : (s.putPen fr).pad = s.pad := rfl
@[simp] theorem State.putPen_panel (s : State) (fr : PenFrame) : (s.putPen fr).panel = s.panel := rfl
@[simp] theorem State.putPen_tracks (s : State) (fr : PenFrame) : (s.putPen fr).tracks = s.tracks := rfl
@[simp] theorem State.putPen_palm (s : State) (fr : PenFrame) : (s.putPen fr).palm = s.palm := rfl
@[simp] theorem State.putPen_gesture (s : State) (fr : PenFrame) : (s.putPen fr).gesture = s.gesture := rfl
@[simp] theorem State.putPen_store (s : State) (fr : PenFrame) : (s.putPen fr).store = s.store := rfl
@[simp] theorem State.putPen_mode (s : State) (fr : PenFrame) : (s.putPen fr).mode = s.mode := rfl
@[simp] theorem State.putPen_command (s : State) (fr : PenFrame) : (s.putPen fr).command = s.command := rfl
@[simp] theorem State.putPen_queue (s : State) (fr : PenFrame) : (s.putPen fr).queue = s.queue := rfl
@[simp] theorem State.putPen_port (s : State) (fr : PenFrame) : (s.putPen fr).port = s.port := rfl
@[simp] theorem State.putPen_inReset (s : State) (fr : PenFrame) : (s.putPen fr).inReset = s.inReset := rfl
@[simp] theorem State.putPen_freeCount (s : State) (fr : PenFrame) : (s.putPen fr).freeCount = s.freeCount := rfl
@[simp] theorem State.putPen_pending (s : State) (fr : PenFrame) : (s.putPen fr).pending = s.pending := rfl

@[simp] theorem State.queryLink_pad (s : State) (l : Surface) : (s.queryLink l).pad = s.pad := rfl
@[simp] theorem State.queryLink_panel (s : State) (l : Surface) : (s.queryLink l).panel = s.panel := rfl
@[simp] theorem State.queryLink_tracks (s : State) (l : Surface) : (s.queryLink l).tracks = s.tracks := rfl
@[simp] theorem State.queryLink_pen (s : State) (l : Surface) : (s.queryLink l).pen = s.pen := rfl
@[simp] theorem State.queryLink_palm (s : State) (l : Surface) : (s.queryLink l).palm = s.palm := rfl
@[simp] theorem State.queryLink_gesture (s : State) (l : Surface) : (s.queryLink l).gesture = s.gesture := rfl
@[simp] theorem State.queryLink_store (s : State) (l : Surface) : (s.queryLink l).store = s.store := rfl
@[simp] theorem State.queryLink_mode (s : State) (l : Surface) : (s.queryLink l).mode = s.mode := rfl
@[simp] theorem State.queryLink_command (s : State) (l : Surface) : (s.queryLink l).command = s.command := rfl
@[simp] theorem State.queryLink_queue (s : State) (l : Surface) : (s.queryLink l).queue = s.queue := rfl
@[simp] theorem State.queryLink_port (s : State) (l : Surface) : (s.queryLink l).port = s.port := rfl
@[simp] theorem State.queryLink_inReset (s : State) (l : Surface) : (s.queryLink l).inReset = s.inReset := rfl
@[simp] theorem State.queryLink_freeCount (s : State) (l : Surface) : (s.queryLink l).freeCount = s.freeCount := rfl
@[simp] theorem State.queryLink_pending (s : State) (l : Surface) : (s.queryLink l).pending = s.pending := rfl

@[simp] theorem State.answerSetMode_padLink (s : State) : (s.answerSetMode).padLink = s.padLink := rfl
@[simp] theorem State.answerSetMode_panelLink (s : State) : (s.answerSetMode).panelLink = s.panelLink := rfl
@[simp] theorem State.answerSetMode_pad (s : State) : (s.answerSetMode).pad = s.pad := rfl
@[simp] theorem State.answerSetMode_panel (s : State) : (s.answerSetMode).panel = s.panel := rfl
@[simp] theorem State.answerSetMode_tracks (s : State) : (s.answerSetMode).tracks = s.tracks := rfl
@[simp] theorem State.answerSetMode_pen (s : State) : (s.answerSetMode).pen = s.pen := rfl
@[simp] theorem State.answerSetMode_palm (s : State) : (s.answerSetMode).palm = s.palm := rfl
@[simp] theorem State.answerSetMode_gesture (s : State) : (s.answerSetMode).gesture = s.gesture := rfl
@[simp] theorem State.answerSetMode_store (s : State) : (s.answerSetMode).store = s.store := rfl
@[simp] theorem State.answerSetMode_port (s : State) : (s.answerSetMode).port = s.port := rfl
@[simp] theorem State.answerSetMode_inReset (s : State) : (s.answerSetMode).inReset = s.inReset := rfl
@[simp] theorem State.answerSetMode_freeCount (s : State) : (s.answerSetMode).freeCount = s.freeCount := rfl
@[simp] theorem State.answerSetMode_pending (s : State) : (s.answerSetMode).pending = s.pending := rfl

@[simp] theorem State.hostFault_padLink (s : State) (r : LinkErrorReason) : (s.hostFault r).padLink = s.padLink := rfl
@[simp] theorem State.hostFault_panelLink (s : State) (r : LinkErrorReason) : (s.hostFault r).panelLink = s.panelLink := rfl
@[simp] theorem State.hostFault_pad (s : State) (r : LinkErrorReason) : (s.hostFault r).pad = s.pad := rfl
@[simp] theorem State.hostFault_panel (s : State) (r : LinkErrorReason) : (s.hostFault r).panel = s.panel := rfl
@[simp] theorem State.hostFault_tracks (s : State) (r : LinkErrorReason) : (s.hostFault r).tracks = s.tracks := rfl
@[simp] theorem State.hostFault_pen (s : State) (r : LinkErrorReason) : (s.hostFault r).pen = s.pen := rfl
@[simp] theorem State.hostFault_palm (s : State) (r : LinkErrorReason) : (s.hostFault r).palm = s.palm := rfl
@[simp] theorem State.hostFault_gesture (s : State) (r : LinkErrorReason) : (s.hostFault r).gesture = s.gesture := rfl
@[simp] theorem State.hostFault_store (s : State) (r : LinkErrorReason) : (s.hostFault r).store = s.store := rfl
@[simp] theorem State.hostFault_mode (s : State) (r : LinkErrorReason) : (s.hostFault r).mode = s.mode := rfl
@[simp] theorem State.hostFault_command (s : State) (r : LinkErrorReason) : (s.hostFault r).command = s.command := rfl
@[simp] theorem State.hostFault_inReset (s : State) (r : LinkErrorReason) : (s.hostFault r).inReset = s.inReset := rfl
@[simp] theorem State.hostFault_freeCount (s : State) (r : LinkErrorReason) : (s.hostFault r).freeCount = s.freeCount := rfl
@[simp] theorem State.hostFault_pending (s : State) (r : LinkErrorReason) : (s.hostFault r).pending = s.pending := rfl

@[simp] theorem State.takeSoftReset_padLink (s : State) : (s.takeSoftReset).padLink = s.padLink := rfl
@[simp] theorem State.takeSoftReset_panelLink (s : State) : (s.takeSoftReset).panelLink = s.panelLink := rfl
@[simp] theorem State.takeSoftReset_pad (s : State) : (s.takeSoftReset).pad = s.pad := rfl
@[simp] theorem State.takeSoftReset_panel (s : State) : (s.takeSoftReset).panel = s.panel := rfl
@[simp] theorem State.takeSoftReset_tracks (s : State) : (s.takeSoftReset).tracks = s.tracks := rfl
@[simp] theorem State.takeSoftReset_pen (s : State) : (s.takeSoftReset).pen = s.pen := rfl
@[simp] theorem State.takeSoftReset_palm (s : State) : (s.takeSoftReset).palm = s.palm := rfl
@[simp] theorem State.takeSoftReset_gesture (s : State) : (s.takeSoftReset).gesture = s.gesture := rfl
@[simp] theorem State.takeSoftReset_store (s : State) : (s.takeSoftReset).store = s.store := rfl
@[simp] theorem State.takeSoftReset_mode (s : State) : (s.takeSoftReset).mode = s.mode := rfl
@[simp] theorem State.takeSoftReset_queue (s : State) : (s.takeSoftReset).queue = s.queue := rfl
@[simp] theorem State.takeSoftReset_port (s : State) : (s.takeSoftReset).port = s.port := rfl
@[simp] theorem State.takeSoftReset_inReset (s : State) : (s.takeSoftReset).inReset = s.inReset := rfl
@[simp] theorem State.takeSoftReset_freeCount (s : State) : (s.takeSoftReset).freeCount = s.freeCount := rfl
@[simp] theorem State.takeSoftReset_pending (s : State) : (s.takeSoftReset).pending = s.pending := rfl

@[simp] theorem State.setTransfer_padLink (s : State) (t : Transfer) : (s.setTransfer t).padLink = s.padLink := rfl
@[simp] theorem State.setTransfer_panelLink (s : State) (t : Transfer) : (s.setTransfer t).panelLink = s.panelLink := rfl
@[simp] theorem State.setTransfer_pad (s : State) (t : Transfer) : (s.setTransfer t).pad = s.pad := rfl
@[simp] theorem State.setTransfer_panel (s : State) (t : Transfer) : (s.setTransfer t).panel = s.panel := rfl
@[simp] theorem State.setTransfer_tracks (s : State) (t : Transfer) : (s.setTransfer t).tracks = s.tracks := rfl
@[simp] theorem State.setTransfer_pen (s : State) (t : Transfer) : (s.setTransfer t).pen = s.pen := rfl
@[simp] theorem State.setTransfer_palm (s : State) (t : Transfer) : (s.setTransfer t).palm = s.palm := rfl
@[simp] theorem State.setTransfer_gesture (s : State) (t : Transfer) : (s.setTransfer t).gesture = s.gesture := rfl
@[simp] theorem State.setTransfer_store (s : State) (t : Transfer) : (s.setTransfer t).store = s.store := rfl
@[simp] theorem State.setTransfer_mode (s : State) (t : Transfer) : (s.setTransfer t).mode = s.mode := rfl
@[simp] theorem State.setTransfer_command (s : State) (t : Transfer) : (s.setTransfer t).command = s.command := rfl
@[simp] theorem State.setTransfer_queue (s : State) (t : Transfer) : (s.setTransfer t).queue = s.queue := rfl
@[simp] theorem State.setTransfer_inReset (s : State) (t : Transfer) : (s.setTransfer t).inReset = s.inReset := rfl
@[simp] theorem State.setTransfer_freeCount (s : State) (t : Transfer) : (s.setTransfer t).freeCount = s.freeCount := rfl
@[simp] theorem State.setTransfer_pending (s : State) (t : Transfer) : (s.setTransfer t).pending = s.pending := rfl
@[simp] theorem State.setTransfer_transfer (s : State) (t : Transfer) : (s.setTransfer t).port.transfer = t := rfl
@[simp] theorem State.setTransfer_errors (s : State) (t : Transfer) : (s.setTransfer t).port.errors = s.port.errors := rfl

@[simp] theorem State.releasePen_padLink (s : State) : (s.releasePen).padLink = s.padLink := rfl
@[simp] theorem State.releasePen_panelLink (s : State) : (s.releasePen).panelLink = s.panelLink := rfl
@[simp] theorem State.releasePen_pad (s : State) : (s.releasePen).pad = s.pad := rfl
@[simp] theorem State.releasePen_panel (s : State) : (s.releasePen).panel = s.panel := rfl
@[simp] theorem State.releasePen_tracks (s : State) : (s.releasePen).tracks = s.tracks := rfl
@[simp] theorem State.releasePen_palm (s : State) : (s.releasePen).palm = s.palm := rfl
@[simp] theorem State.releasePen_gesture (s : State) : (s.releasePen).gesture = s.gesture := rfl
@[simp] theorem State.releasePen_mode (s : State) : (s.releasePen).mode = s.mode := rfl
@[simp] theorem State.releasePen_command (s : State) : (s.releasePen).command = s.command := rfl
@[simp] theorem State.releasePen_queue (s : State) : (s.releasePen).queue = s.queue := rfl
@[simp] theorem State.releasePen_port (s : State) : (s.releasePen).port = s.port := rfl
@[simp] theorem State.releasePen_inReset (s : State) : (s.releasePen).inReset = s.inReset := rfl
@[simp] theorem State.releasePen_freeCount (s : State) : (s.releasePen).freeCount = s.freeCount := rfl
@[simp] theorem State.releasePen_pending (s : State) : (s.releasePen).pending = s.pending := rfl

@[simp] theorem State.gestureClock_padLink (s : State) (f : Surface) (time : Half) : (s.gestureClock f time).padLink = s.padLink := rfl
@[simp] theorem State.gestureClock_panelLink (s : State) (f : Surface) (time : Half) : (s.gestureClock f time).panelLink = s.panelLink := rfl
@[simp] theorem State.gestureClock_tracks (s : State) (f : Surface) (time : Half) : (s.gestureClock f time).tracks = s.tracks := rfl
@[simp] theorem State.gestureClock_pen (s : State) (f : Surface) (time : Half) : (s.gestureClock f time).pen = s.pen := rfl
@[simp] theorem State.gestureClock_palm (s : State) (f : Surface) (time : Half) : (s.gestureClock f time).palm = s.palm := rfl
@[simp] theorem State.gestureClock_gesture (s : State) (f : Surface) (time : Half) : (s.gestureClock f time).gesture = s.gesture := rfl
@[simp] theorem State.gestureClock_store (s : State) (f : Surface) (time : Half) : (s.gestureClock f time).store = s.store := rfl
@[simp] theorem State.gestureClock_mode (s : State) (f : Surface) (time : Half) : (s.gestureClock f time).mode = s.mode := rfl
@[simp] theorem State.gestureClock_command (s : State) (f : Surface) (time : Half) : (s.gestureClock f time).command = s.command := rfl
@[simp] theorem State.gestureClock_queue (s : State) (f : Surface) (time : Half) : (s.gestureClock f time).queue = s.queue := rfl
@[simp] theorem State.gestureClock_port (s : State) (f : Surface) (time : Half) : (s.gestureClock f time).port = s.port := rfl
@[simp] theorem State.gestureClock_inReset (s : State) (f : Surface) (time : Half) : (s.gestureClock f time).inReset = s.inReset := rfl
@[simp] theorem State.gestureClock_freeCount (s : State) (f : Surface) (time : Half) : (s.gestureClock f time).freeCount = s.freeCount := rfl
@[simp] theorem State.gestureClock_pending (s : State) (f : Surface) (time : Half) : (s.gestureClock f time).pending = s.pending := rfl

@[simp] theorem State.gestureJoins_padLink (s : State) (f : Surface) (time : Half) : (s.gestureJoins f time).padLink = s.padLink := rfl
@[simp] theorem State.gestureJoins_panelLink (s : State) (f : Surface) (time : Half) : (s.gestureJoins f time).panelLink = s.panelLink := rfl
@[simp] theorem State.gestureJoins_pen (s : State) (f : Surface) (time : Half) : (s.gestureJoins f time).pen = s.pen := rfl
@[simp] theorem State.gestureJoins_palm (s : State) (f : Surface) (time : Half) : (s.gestureJoins f time).palm = s.palm := rfl
@[simp] theorem State.gestureJoins_gesture (s : State) (f : Surface) (time : Half) : (s.gestureJoins f time).gesture = s.gesture := rfl
@[simp] theorem State.gestureJoins_store (s : State) (f : Surface) (time : Half) : (s.gestureJoins f time).store = s.store := rfl
@[simp] theorem State.gestureJoins_mode (s : State) (f : Surface) (time : Half) : (s.gestureJoins f time).mode = s.mode := rfl
@[simp] theorem State.gestureJoins_command (s : State) (f : Surface) (time : Half) : (s.gestureJoins f time).command = s.command := rfl
@[simp] theorem State.gestureJoins_queue (s : State) (f : Surface) (time : Half) : (s.gestureJoins f time).queue = s.queue := rfl
@[simp] theorem State.gestureJoins_port (s : State) (f : Surface) (time : Half) : (s.gestureJoins f time).port = s.port := rfl
@[simp] theorem State.gestureJoins_inReset (s : State) (f : Surface) (time : Half) : (s.gestureJoins f time).inReset = s.inReset := rfl
@[simp] theorem State.gestureJoins_freeCount (s : State) (f : Surface) (time : Half) : (s.gestureJoins f time).freeCount = s.freeCount := rfl
@[simp] theorem State.gestureJoins_pending (s : State) (f : Surface) (time : Half) : (s.gestureJoins f time).pending = s.pending := rfl

@[simp] theorem State.refuseSlot_padLink (s : State) (f : Surface) (op : SenseOp) (rest : List Candidate) : (s.refuseSlot f op rest).padLink = s.padLink := rfl
@[simp] theorem State.refuseSlot_panelLink (s : State) (f : Surface) (op : SenseOp) (rest : List Candidate) : (s.refuseSlot f op rest).panelLink = s.panelLink := rfl
@[simp] theorem State.refuseSlot_pen (s : State) (f : Surface) (op : SenseOp) (rest : List Candidate) : (s.refuseSlot f op rest).pen = s.pen := rfl
@[simp] theorem State.refuseSlot_palm (s : State) (f : Surface) (op : SenseOp) (rest : List Candidate) : (s.refuseSlot f op rest).palm = s.palm := rfl
@[simp] theorem State.refuseSlot_gesture (s : State) (f : Surface) (op : SenseOp) (rest : List Candidate) : (s.refuseSlot f op rest).gesture = s.gesture := rfl
@[simp] theorem State.refuseSlot_store (s : State) (f : Surface) (op : SenseOp) (rest : List Candidate) : (s.refuseSlot f op rest).store = s.store := rfl
@[simp] theorem State.refuseSlot_mode (s : State) (f : Surface) (op : SenseOp) (rest : List Candidate) : (s.refuseSlot f op rest).mode = s.mode := rfl
@[simp] theorem State.refuseSlot_command (s : State) (f : Surface) (op : SenseOp) (rest : List Candidate) : (s.refuseSlot f op rest).command = s.command := rfl
@[simp] theorem State.refuseSlot_queue (s : State) (f : Surface) (op : SenseOp) (rest : List Candidate) : (s.refuseSlot f op rest).queue = s.queue := rfl
@[simp] theorem State.refuseSlot_port (s : State) (f : Surface) (op : SenseOp) (rest : List Candidate) : (s.refuseSlot f op rest).port = s.port := rfl
@[simp] theorem State.refuseSlot_inReset (s : State) (f : Surface) (op : SenseOp) (rest : List Candidate) : (s.refuseSlot f op rest).inReset = s.inReset := rfl
@[simp] theorem State.refuseSlot_freeCount (s : State) (f : Surface) (op : SenseOp) (rest : List Candidate) : (s.refuseSlot f op rest).freeCount = s.freeCount := rfl
@[simp] theorem State.refuseSlot_pending (s : State) (f : Surface) (op : SenseOp) (rest : List Candidate) : (s.refuseSlot f op rest).pending = s.pending := rfl

@[simp] theorem State.releaseSense_padLink (s : State) (f : Surface) (op : SenseOp) : (s.releaseSense f op).padLink = s.padLink := rfl
@[simp] theorem State.releaseSense_panelLink (s : State) (f : Surface) (op : SenseOp) : (s.releaseSense f op).panelLink = s.panelLink := rfl
@[simp] theorem State.releaseSense_pen (s : State) (f : Surface) (op : SenseOp) : (s.releaseSense f op).pen = s.pen := rfl
@[simp] theorem State.releaseSense_palm (s : State) (f : Surface) (op : SenseOp) : (s.releaseSense f op).palm = s.palm := rfl
@[simp] theorem State.releaseSense_mode (s : State) (f : Surface) (op : SenseOp) : (s.releaseSense f op).mode = s.mode := rfl
@[simp] theorem State.releaseSense_command (s : State) (f : Surface) (op : SenseOp) : (s.releaseSense f op).command = s.command := rfl
@[simp] theorem State.releaseSense_queue (s : State) (f : Surface) (op : SenseOp) : (s.releaseSense f op).queue = s.queue := rfl
@[simp] theorem State.releaseSense_port (s : State) (f : Surface) (op : SenseOp) : (s.releaseSense f op).port = s.port := rfl
@[simp] theorem State.releaseSense_inReset (s : State) (f : Surface) (op : SenseOp) : (s.releaseSense f op).inReset = s.inReset := rfl
@[simp] theorem State.releaseSense_freeCount (s : State) (f : Surface) (op : SenseOp) : (s.releaseSense f op).freeCount = s.freeCount := rfl
@[simp] theorem State.releaseSense_pending (s : State) (f : Surface) (op : SenseOp) : (s.releaseSense f op).pending = s.pending := rfl

@[simp] theorem State.setLink_same (s : State) (l : Surface) (v : Link) : (s.setLink l v).link l = v := by
  cases l <;> rfl
@[simp] theorem State.setLink_pad_panel (s : State) (v : Link) : (s.setLink .pad v).link .panel = s.panelLink := rfl
@[simp] theorem State.setLink_panel_pad (s : State) (v : Link) : (s.setLink .panel v).link .pad = s.padLink := rfl
theorem State.setLink_other (s : State) (l m : Surface) (v : Link) (h : l ≠ m) : (s.setLink l v).link m = s.link m := by
  cases l <;> cases m <;> first | rfl | exact absurd rfl h
@[simp] theorem State.setUnit_same (s : State) (f : Surface) (v : SurfaceUnit) : (s.setUnit f v).unit f = v := by
  cases f <;> rfl
@[simp] theorem State.setUnit_pad_panel (s : State) (v : SurfaceUnit) : (s.setUnit .pad v).unit .panel = s.panel := rfl
@[simp] theorem State.setUnit_panel_pad (s : State) (v : SurfaceUnit) : (s.setUnit .panel v).unit .pad = s.pad := rfl
theorem State.setUnit_other (s : State) (f g : Surface) (v : SurfaceUnit) (h : f ≠ g) :
    (s.setUnit f v).unit g = s.unit g := by
  cases f <;> cases g <;> first | rfl | exact absurd rfl h
@[simp] theorem State.setLink_self (s : State) (l : Surface) : s.setLink l (s.link l) = s := by cases l <;> rfl
@[simp] theorem State.setUnit_self (s : State) (f : Surface) : s.setUnit f (s.unit f) = s := by cases f <;> rfl
@[simp] theorem State.setSlots_slots (s : State) (v : List (Option Track)) : (s.setSlots v).tracks.slots = v := rfl
@[simp] theorem TableStore.setTable_same (st : TableStore) (t : Table) (v : TableState) :
    (st.setTable t v).table t = v := by
  cases t <;> rfl
theorem TableStore.setTable_other (st : TableStore) (t u : Table) (v : TableState) (h : t ≠ u) :
    (st.setTable t v).table u = st.table u := by
  cases t <;> cases u <;> first | rfl | exact absurd rfl h
@[simp] theorem TableState.setBank_same (t : TableState) (k : Bank) (rows : List StoredRow) :
    (t.setBank k rows).bank k = rows := by
  cases k <;> rfl
theorem TableState.setBank_other (t : TableState) (k m : Bank) (rows : List StoredRow) (h : k ≠ m) :
    (t.setBank k rows).bank m = t.bank m := by
  cases k <;> cases m <;> first | rfl | exact absurd rfl h

end Sys2Proof.Machine
end

