-- ==== Sys2Proof/Laws/Frames.lean ====
section
/-! SUPPORT. What the composed operations of the blocks leave alone, field by field. -/

namespace Sys2Proof.Machine

@[simp] theorem State.evaluateScan_pad (s : State) (l : Surface) : (s.evaluateScan l).pad = s.pad := by unfold State.evaluateScan; split <;> rfl
@[simp] theorem State.evaluateScan_panel (s : State) (l : Surface) : (s.evaluateScan l).panel = s.panel := by unfold State.evaluateScan; split <;> rfl
@[simp] theorem State.evaluateScan_tracks (s : State) (l : Surface) : (s.evaluateScan l).tracks = s.tracks := by unfold State.evaluateScan; split <;> rfl
@[simp] theorem State.evaluateScan_pen (s : State) (l : Surface) : (s.evaluateScan l).pen = s.pen := by unfold State.evaluateScan; split <;> rfl
@[simp] theorem State.evaluateScan_palm (s : State) (l : Surface) : (s.evaluateScan l).palm = s.palm := by unfold State.evaluateScan; split <;> rfl
@[simp] theorem State.evaluateScan_gesture (s : State) (l : Surface) : (s.evaluateScan l).gesture = s.gesture := by unfold State.evaluateScan; split <;> rfl
@[simp] theorem State.evaluateScan_store (s : State) (l : Surface) : (s.evaluateScan l).store = s.store := by unfold State.evaluateScan; split <;> rfl
@[simp] theorem State.evaluateScan_mode (s : State) (l : Surface) : (s.evaluateScan l).mode = s.mode := by unfold State.evaluateScan; split <;> rfl
@[simp] theorem State.evaluateScan_command (s : State) (l : Surface) : (s.evaluateScan l).command = s.command := by unfold State.evaluateScan; split <;> rfl
@[simp] theorem State.evaluateScan_queue (s : State) (l : Surface) : (s.evaluateScan l).queue = s.queue := by unfold State.evaluateScan; split <;> rfl
@[simp] theorem State.evaluateScan_port (s : State) (l : Surface) : (s.evaluateScan l).port = s.port := by unfold State.evaluateScan; split <;> rfl
@[simp] theorem State.evaluateScan_inReset (s : State) (l : Surface) : (s.evaluateScan l).inReset = s.inReset := by unfold State.evaluateScan; split <;> rfl
@[simp] theorem State.evaluateScan_freeCount (s : State) (l : Surface) : (s.evaluateScan l).freeCount = s.freeCount := by unfold State.evaluateScan; split <;> rfl
@[simp] theorem State.evaluateScan_pending (s : State) (l : Surface) : (s.evaluateScan l).pending = s.pending := by unfold State.evaluateScan; split <;> rfl

@[simp] theorem State.evaluateScans_pad (s : State) : (s.evaluateScans).pad = s.pad := by simp [State.evaluateScans]
@[simp] theorem State.evaluateScans_panel (s : State) : (s.evaluateScans).panel = s.panel := by simp [State.evaluateScans]
@[simp] theorem State.evaluateScans_tracks (s : State) : (s.evaluateScans).tracks = s.tracks := by simp [State.evaluateScans]
@[simp] theorem State.evaluateScans_pen (s : State) : (s.evaluateScans).pen = s.pen := by simp [State.evaluateScans]
@[simp] theorem State.evaluateScans_palm (s : State) : (s.evaluateScans).palm = s.palm := by simp [State.evaluateScans]
@[simp] theorem State.evaluateScans_gesture (s : State) : (s.evaluateScans).gesture = s.gesture := by simp [State.evaluateScans]
@[simp] theorem State.evaluateScans_store (s : State) : (s.evaluateScans).store = s.store := by simp [State.evaluateScans]
@[simp] theorem State.evaluateScans_mode (s : State) : (s.evaluateScans).mode = s.mode := by simp [State.evaluateScans]
@[simp] theorem State.evaluateScans_command (s : State) : (s.evaluateScans).command = s.command := by simp [State.evaluateScans]
@[simp] theorem State.evaluateScans_queue (s : State) : (s.evaluateScans).queue = s.queue := by simp [State.evaluateScans]
@[simp] theorem State.evaluateScans_port (s : State) : (s.evaluateScans).port = s.port := by simp [State.evaluateScans]
@[simp] theorem State.evaluateScans_inReset (s : State) : (s.evaluateScans).inReset = s.inReset := by simp [State.evaluateScans]
@[simp] theorem State.evaluateScans_freeCount (s : State) : (s.evaluateScans).freeCount = s.freeCount := by simp [State.evaluateScans]
@[simp] theorem State.evaluateScans_pending (s : State) : (s.evaluateScans).pending = s.pending := by simp [State.evaluateScans]

@[simp] theorem State.emptySlots_padLink (s : State) (l : Surface) : (s.emptySlots l).padLink = s.padLink := by cases l <;> rfl
@[simp] theorem State.emptySlots_panelLink (s : State) (l : Surface) : (s.emptySlots l).panelLink = s.panelLink := by cases l <;> rfl
@[simp] theorem State.emptySlots_tracks (s : State) (l : Surface) : (s.emptySlots l).tracks = s.tracks := by cases l <;> rfl
@[simp] theorem State.emptySlots_palm (s : State) (l : Surface) : (s.emptySlots l).palm = s.palm := by cases l <;> rfl
@[simp] theorem State.emptySlots_gesture (s : State) (l : Surface) : (s.emptySlots l).gesture = s.gesture := by cases l <;> rfl
@[simp] theorem State.emptySlots_store (s : State) (l : Surface) : (s.emptySlots l).store = s.store := by cases l <;> rfl
@[simp] theorem State.emptySlots_mode (s : State) (l : Surface) : (s.emptySlots l).mode = s.mode := by cases l <;> rfl
@[simp] theorem State.emptySlots_command (s : State) (l : Surface) : (s.emptySlots l).command = s.command := by cases l <;> rfl
@[simp] theorem State.emptySlots_queue (s : State) (l : Surface) : (s.emptySlots l).queue = s.queue := by cases l <;> rfl
@[simp] theorem State.emptySlots_port (s : State) (l : Surface) : (s.emptySlots l).port = s.port := by cases l <;> rfl
@[simp] theorem State.emptySlots_inReset (s : State) (l : Surface) : (s.emptySlots l).inReset = s.inReset := by cases l <;> rfl
@[simp] theorem State.emptySlots_freeCount (s : State) (l : Surface) : (s.emptySlots l).freeCount = s.freeCount := by cases l <;> rfl
@[simp] theorem State.emptySlots_pending (s : State) (l : Surface) : (s.emptySlots l).pending = s.pending := by cases l <;> rfl

@[simp] theorem State.requestForcedEnd_padLink (s : State) (f : Surface) : (s.requestForcedEnd f).padLink = s.padLink := by unfold State.requestForcedEnd; split <;> rfl
@[simp] theorem State.requestForcedEnd_panelLink (s : State) (f : Surface) : (s.requestForcedEnd f).panelLink = s.panelLink := by unfold State.requestForcedEnd; split <;> rfl
@[simp] theorem State.requestForcedEnd_pen (s : State) (f : Surface) : (s.requestForcedEnd f).pen = s.pen := by unfold State.requestForcedEnd; split <;> rfl
@[simp] theorem State.requestForcedEnd_palm (s : State) (f : Surface) : (s.requestForcedEnd f).palm = s.palm := by unfold State.requestForcedEnd; split <;> rfl
@[simp] theorem State.requestForcedEnd_store (s : State) (f : Surface) : (s.requestForcedEnd f).store = s.store := by unfold State.requestForcedEnd; split <;> rfl
@[simp] theorem State.requestForcedEnd_mode (s : State) (f : Surface) : (s.requestForcedEnd f).mode = s.mode := by unfold State.requestForcedEnd; split <;> rfl
@[simp] theorem State.requestForcedEnd_command (s : State) (f : Surface) : (s.requestForcedEnd f).command = s.command := by unfold State.requestForcedEnd; split <;> rfl
@[simp] theorem State.requestForcedEnd_port (s : State) (f : Surface) : (s.requestForcedEnd f).port = s.port := by unfold State.requestForcedEnd; split <;> rfl
@[simp] theorem State.requestForcedEnd_inReset (s : State) (f : Surface) : (s.requestForcedEnd f).inReset = s.inReset := by unfold State.requestForcedEnd; split <;> rfl
@[simp] theorem State.requestForcedEnd_freeCount (s : State) (f : Surface) : (s.requestForcedEnd f).freeCount = s.freeCount := by unfold State.requestForcedEnd; split <;> rfl
@[simp] theorem State.requestForcedEnd_pending (s : State) (f : Surface) : (s.requestForcedEnd f).pending = s.pending := by unfold State.requestForcedEnd; split <;> rfl

@[simp] theorem State.requestDrop_padLink (s : State) : (s.requestDrop).padLink = s.padLink := by unfold State.requestDrop; split <;> rfl
@[simp] theorem State.requestDrop_panelLink (s : State) : (s.requestDrop).panelLink = s.panelLink := by unfold State.requestDrop; split <;> rfl
@[simp] theorem State.requestDrop_pad (s : State) : (s.requestDrop).pad = s.pad := by unfold State.requestDrop; split <;> rfl
@[simp] theorem State.requestDrop_panel (s : State) : (s.requestDrop).panel = s.panel := by unfold State.requestDrop; split <;> rfl
@[simp] theorem State.requestDrop_tracks (s : State) : (s.requestDrop).tracks = s.tracks := by unfold State.requestDrop; split <;> rfl
@[simp] theorem State.requestDrop_palm (s : State) : (s.requestDrop).palm = s.palm := by unfold State.requestDrop; split <;> rfl
@[simp] theorem State.requestDrop_gesture (s : State) : (s.requestDrop).gesture = s.gesture := by unfold State.requestDrop; split <;> rfl
@[simp] theorem State.requestDrop_store (s : State) : (s.requestDrop).store = s.store := by unfold State.requestDrop; split <;> rfl
@[simp] theorem State.requestDrop_mode (s : State) : (s.requestDrop).mode = s.mode := by unfold State.requestDrop; split <;> rfl
@[simp] theorem State.requestDrop_command (s : State) : (s.requestDrop).command = s.command := by unfold State.requestDrop; split <;> rfl
@[simp] theorem State.requestDrop_port (s : State) : (s.requestDrop).port = s.port := by unfold State.requestDrop; split <;> rfl
@[simp] theorem State.requestDrop_inReset (s : State) : (s.requestDrop).inReset = s.inReset := by unfold State.requestDrop; split <;> rfl
@[simp] theorem State.requestDrop_freeCount (s : State) : (s.requestDrop).freeCount = s.freeCount := by unfold State.requestDrop; split <;> rfl
@[simp] theorem State.requestDrop_pending (s : State) : (s.requestDrop).pending = s.pending := by unfold State.requestDrop; split <;> rfl

@[simp] theorem State.quiet_padLink (s : State) : (s.quiet).padLink = s.padLink := by simp [State.quiet]
@[simp] theorem State.quiet_panelLink (s : State) : (s.quiet).panelLink = s.panelLink := by simp [State.quiet]
@[simp] theorem State.quiet_palm (s : State) : (s.quiet).palm = s.palm := by simp [State.quiet]
@[simp] theorem State.quiet_store (s : State) : (s.quiet).store = s.store := by simp [State.quiet]
@[simp] theorem State.quiet_mode (s : State) : (s.quiet).mode = s.mode := by simp [State.quiet]
@[simp] theorem State.quiet_command (s : State) : (s.quiet).command = s.command := by simp [State.quiet]
@[simp] theorem State.quiet_port (s : State) : (s.quiet).port = s.port := by simp [State.quiet]
@[simp] theorem State.quiet_inReset (s : State) : (s.quiet).inReset = s.inReset := by simp [State.quiet]
@[simp] theorem State.quiet_freeCount (s : State) : (s.quiet).freeCount = s.freeCount := by simp [State.quiet]
@[simp] theorem State.quiet_pending (s : State) : (s.quiet).pending = s.pending := by simp [State.quiet]

@[simp] theorem State.enterStalled_palm (s : State) (l : Surface) (c : StallCause) : (s.enterStalled l c).palm = s.palm := by unfold State.enterStalled; split; rfl; cases l <;> simp
@[simp] theorem State.enterStalled_store (s : State) (l : Surface) (c : StallCause) : (s.enterStalled l c).store = s.store := by unfold State.enterStalled; split; rfl; cases l <;> simp
@[simp] theorem State.enterStalled_mode (s : State) (l : Surface) (c : StallCause) : (s.enterStalled l c).mode = s.mode := by unfold State.enterStalled; split; rfl; cases l <;> simp
@[simp] theorem State.enterStalled_command (s : State) (l : Surface) (c : StallCause) : (s.enterStalled l c).command = s.command := by unfold State.enterStalled; split; rfl; cases l <;> simp
@[simp] theorem State.enterStalled_port (s : State) (l : Surface) (c : StallCause) : (s.enterStalled l c).port = s.port := by unfold State.enterStalled; split; rfl; cases l <;> simp
@[simp] theorem State.enterStalled_inReset (s : State) (l : Surface) (c : StallCause) : (s.enterStalled l c).inReset = s.inReset := by unfold State.enterStalled; split; rfl; cases l <;> simp
@[simp] theorem State.enterStalled_freeCount (s : State) (l : Surface) (c : StallCause) : (s.enterStalled l c).freeCount = s.freeCount := by unfold State.enterStalled; split; rfl; cases l <;> simp
@[simp] theorem State.enterStalled_pending (s : State) (l : Surface) (c : StallCause) : (s.enterStalled l c).pending = s.pending := by unfold State.enterStalled; split; rfl; cases l <;> simp

@[simp] theorem State.linkTimeout_palm (s : State) (l : Surface) (c : StallCause) : (s.linkTimeout l c).palm = s.palm := by unfold State.linkTimeout; split <;> simp
@[simp] theorem State.linkTimeout_store (s : State) (l : Surface) (c : StallCause) : (s.linkTimeout l c).store = s.store := by unfold State.linkTimeout; split <;> simp
@[simp] theorem State.linkTimeout_mode (s : State) (l : Surface) (c : StallCause) : (s.linkTimeout l c).mode = s.mode := by unfold State.linkTimeout; split <;> simp
@[simp] theorem State.linkTimeout_command (s : State) (l : Surface) (c : StallCause) : (s.linkTimeout l c).command = s.command := by unfold State.linkTimeout; split <;> simp
@[simp] theorem State.linkTimeout_port (s : State) (l : Surface) (c : StallCause) : (s.linkTimeout l c).port = s.port := by unfold State.linkTimeout; split <;> simp
@[simp] theorem State.linkTimeout_inReset (s : State) (l : Surface) (c : StallCause) : (s.linkTimeout l c).inReset = s.inReset := by unfold State.linkTimeout; split <;> simp
@[simp] theorem State.linkTimeout_freeCount (s : State) (l : Surface) (c : StallCause) : (s.linkTimeout l c).freeCount = s.freeCount := by unfold State.linkTimeout; split <;> simp
@[simp] theorem State.linkTimeout_pending (s : State) (l : Surface) (c : StallCause) : (s.linkTimeout l c).pending = s.pending := by unfold State.linkTimeout; split <;> simp

@[simp] theorem State.beginScan_pad (s : State) (m : Mode) (c : Cause) : (s.beginScan m c).pad = s.pad := by simp [State.beginScan]
@[simp] theorem State.beginScan_panel (s : State) (m : Mode) (c : Cause) : (s.beginScan m c).panel = s.panel := by simp [State.beginScan]
@[simp] theorem State.beginScan_tracks (s : State) (m : Mode) (c : Cause) : (s.beginScan m c).tracks = s.tracks := by simp [State.beginScan]
@[simp] theorem State.beginScan_pen (s : State) (m : Mode) (c : Cause) : (s.beginScan m c).pen = s.pen := by simp [State.beginScan]
@[simp] theorem State.beginScan_palm (s : State) (m : Mode) (c : Cause) : (s.beginScan m c).palm = s.palm := by simp [State.beginScan]
@[simp] theorem State.beginScan_gesture (s : State) (m : Mode) (c : Cause) : (s.beginScan m c).gesture = s.gesture := by simp [State.beginScan]
@[simp] theorem State.beginScan_store (s : State) (m : Mode) (c : Cause) : (s.beginScan m c).store = s.store := by simp [State.beginScan]
@[simp] theorem State.beginScan_command (s : State) (m : Mode) (c : Cause) : (s.beginScan m c).command = s.command := by simp [State.beginScan]
@[simp] theorem State.beginScan_queue (s : State) (m : Mode) (c : Cause) : (s.beginScan m c).queue = s.queue := by simp [State.beginScan]
@[simp] theorem State.beginScan_port (s : State) (m : Mode) (c : Cause) : (s.beginScan m c).port = s.port := by simp [State.beginScan]
@[simp] theorem State.beginScan_inReset (s : State) (m : Mode) (c : Cause) : (s.beginScan m c).inReset = s.inReset := by simp [State.beginScan]
@[simp] theorem State.beginScan_freeCount (s : State) (m : Mode) (c : Cause) : (s.beginScan m c).freeCount = s.freeCount := by simp [State.beginScan]
@[simp] theorem State.beginScan_pending (s : State) (m : Mode) (c : Cause) : (s.beginScan m c).pending = s.pending := by simp [State.beginScan]

@[simp] theorem State.beginDoze_palm (s : State) : (s.beginDoze).palm = s.palm := by simp [State.beginDoze]
@[simp] theorem State.beginDoze_store (s : State) : (s.beginDoze).store = s.store := by simp [State.beginDoze]
@[simp] theorem State.beginDoze_command (s : State) : (s.beginDoze).command = s.command := by simp [State.beginDoze]
@[simp] theorem State.beginDoze_port (s : State) : (s.beginDoze).port = s.port := by simp [State.beginDoze]
@[simp] theorem State.beginDoze_inReset (s : State) : (s.beginDoze).inReset = s.inReset := by simp [State.beginDoze]
@[simp] theorem State.beginDoze_freeCount (s : State) : (s.beginDoze).freeCount = s.freeCount := by simp [State.beginDoze]
@[simp] theorem State.beginDoze_pending (s : State) : (s.beginDoze).pending = s.pending := by simp [State.beginDoze]

@[simp] theorem State.beginSleep_palm (s : State) : (s.beginSleep).palm = s.palm := by simp [State.beginSleep]
@[simp] theorem State.beginSleep_store (s : State) : (s.beginSleep).store = s.store := by simp [State.beginSleep]
@[simp] theorem State.beginSleep_command (s : State) : (s.beginSleep).command = s.command := by simp [State.beginSleep]
@[simp] theorem State.beginSleep_port (s : State) : (s.beginSleep).port = s.port := by simp [State.beginSleep]
@[simp] theorem State.beginSleep_inReset (s : State) : (s.beginSleep).inReset = s.inReset := by simp [State.beginSleep]
@[simp] theorem State.beginSleep_freeCount (s : State) : (s.beginSleep).freeCount = s.freeCount := by simp [State.beginSleep]
@[simp] theorem State.beginSleep_pending (s : State) : (s.beginSleep).pending = s.pending := by simp [State.beginSleep]

@[simp] theorem State.beginWake_pad (s : State) (m : Mode) : (s.beginWake m).pad = s.pad := rfl
@[simp] theorem State.beginWake_panel (s : State) (m : Mode) : (s.beginWake m).panel = s.panel := rfl
@[simp] theorem State.beginWake_tracks (s : State) (m : Mode) : (s.beginWake m).tracks = s.tracks := rfl
@[simp] theorem State.beginWake_pen (s : State) (m : Mode) : (s.beginWake m).pen = s.pen := rfl
@[simp] theorem State.beginWake_palm (s : State) (m : Mode) : (s.beginWake m).palm = s.palm := rfl
@[simp] theorem State.beginWake_gesture (s : State) (m : Mode) : (s.beginWake m).gesture = s.gesture := rfl
@[simp] theorem State.beginWake_command (s : State) (m : Mode) : (s.beginWake m).command = s.command := rfl
@[simp] theorem State.beginWake_queue (s : State) (m : Mode) : (s.beginWake m).queue = s.queue := rfl
@[simp] theorem State.beginWake_port (s : State) (m : Mode) : (s.beginWake m).port = s.port := rfl
@[simp] theorem State.beginWake_inReset (s : State) (m : Mode) : (s.beginWake m).inReset = s.inReset := rfl
@[simp] theorem State.beginWake_freeCount (s : State) (m : Mode) : (s.beginWake m).freeCount = s.freeCount := rfl
@[simp] theorem State.beginWake_pending (s : State) (m : Mode) : (s.beginWake m).pending = s.pending := rfl

@[simp] theorem State.disable_padLink (s : State) (f : Surface) : (s.disable f).padLink = s.padLink := by cases f <;> simp [State.disable]
@[simp] theorem State.disable_panelLink (s : State) (f : Surface) : (s.disable f).panelLink = s.panelLink := by cases f <;> simp [State.disable]
@[simp] theorem State.disable_palm (s : State) (f : Surface) : (s.disable f).palm = s.palm := by cases f <;> simp [State.disable]
@[simp] theorem State.disable_store (s : State) (f : Surface) : (s.disable f).store = s.store := by cases f <;> simp [State.disable]
@[simp] theorem State.disable_mode (s : State) (f : Surface) : (s.disable f).mode = s.mode := by cases f <;> simp [State.disable]
@[simp] theorem State.disable_command (s : State) (f : Surface) : (s.disable f).command = s.command := by cases f <;> simp [State.disable]
@[simp] theorem State.disable_port (s : State) (f : Surface) : (s.disable f).port = s.port := by cases f <;> simp [State.disable]
@[simp] theorem State.disable_inReset (s : State) (f : Surface) : (s.disable f).inReset = s.inReset := by cases f <;> simp [State.disable]
@[simp] theorem State.disable_freeCount (s : State) (f : Surface) : (s.disable f).freeCount = s.freeCount := by cases f <;> simp [State.disable]
@[simp] theorem State.disable_pending (s : State) (f : Surface) : (s.disable f).pending = s.pending := by cases f <;> simp [State.disable]

@[simp] theorem State.disableWhen_padLink (s : State) (f : Surface) (b : Bool) : (s.disableWhen f b).padLink = s.padLink := by unfold State.disableWhen; split <;> simp
@[simp] theorem State.disableWhen_panelLink (s : State) (f : Surface) (b : Bool) : (s.disableWhen f b).panelLink = s.panelLink := by unfold State.disableWhen; split <;> simp
@[simp] theorem State.disableWhen_palm (s : State) (f : Surface) (b : Bool) : (s.disableWhen f b).palm = s.palm := by unfold State.disableWhen; split <;> simp
@[simp] theorem State.disableWhen_store (s : State) (f : Surface) (b : Bool) : (s.disableWhen f b).store = s.store := by unfold State.disableWhen; split <;> simp
@[simp] theorem State.disableWhen_mode (s : State) (f : Surface) (b : Bool) : (s.disableWhen f b).mode = s.mode := by unfold State.disableWhen; split <;> simp
@[simp] theorem State.disableWhen_command (s : State) (f : Surface) (b : Bool) : (s.disableWhen f b).command = s.command := by unfold State.disableWhen; split <;> simp
@[simp] theorem State.disableWhen_port (s : State) (f : Surface) (b : Bool) : (s.disableWhen f b).port = s.port := by unfold State.disableWhen; split <;> simp
@[simp] theorem State.disableWhen_inReset (s : State) (f : Surface) (b : Bool) : (s.disableWhen f b).inReset = s.inReset := by unfold State.disableWhen; split <;> simp
@[simp] theorem State.disableWhen_freeCount (s : State) (f : Surface) (b : Bool) : (s.disableWhen f b).freeCount = s.freeCount := by unfold State.disableWhen; split <;> simp
@[simp] theorem State.disableWhen_pending (s : State) (f : Surface) (b : Bool) : (s.disableWhen f b).pending = s.pending := by unfold State.disableWhen; split <;> simp

@[simp] theorem State.evaluateEnables_palm (s : State) (e : Enables) : (s.evaluateEnables e).palm = s.palm := by unfold State.evaluateEnables; dsimp only; split <;> simp
@[simp] theorem State.evaluateEnables_store (s : State) (e : Enables) : (s.evaluateEnables e).store = s.store := by unfold State.evaluateEnables; dsimp only; split <;> simp
@[simp] theorem State.evaluateEnables_mode (s : State) (e : Enables) : (s.evaluateEnables e).mode = s.mode := by unfold State.evaluateEnables; dsimp only; split <;> simp
@[simp] theorem State.evaluateEnables_port (s : State) (e : Enables) : (s.evaluateEnables e).port = s.port := by unfold State.evaluateEnables; dsimp only; split <;> simp
@[simp] theorem State.evaluateEnables_inReset (s : State) (e : Enables) : (s.evaluateEnables e).inReset = s.inReset := by unfold State.evaluateEnables; dsimp only; split <;> simp
@[simp] theorem State.evaluateEnables_freeCount (s : State) (e : Enables) : (s.evaluateEnables e).freeCount = s.freeCount := by unfold State.evaluateEnables; dsimp only; split <;> simp
@[simp] theorem State.evaluateEnables_pending (s : State) (e : Enables) : (s.evaluateEnables e).pending = s.pending := by unfold State.evaluateEnables; dsimp only; split <;> simp

@[simp] theorem State.consultPosture_palm (s : State) : (s.consultPosture).palm = s.palm := by simp [State.consultPosture]
@[simp] theorem State.consultPosture_mode (s : State) : (s.consultPosture).mode = s.mode := by simp [State.consultPosture]
@[simp] theorem State.consultPosture_port (s : State) : (s.consultPosture).port = s.port := by simp [State.consultPosture]
@[simp] theorem State.consultPosture_inReset (s : State) : (s.consultPosture).inReset = s.inReset := by simp [State.consultPosture]
@[simp] theorem State.consultPosture_freeCount (s : State) : (s.consultPosture).freeCount = s.freeCount := by simp [State.consultPosture]
@[simp] theorem State.consultPosture_pending (s : State) : (s.consultPosture).pending = s.pending := by simp [State.consultPosture]

@[simp] theorem State.reportReturn_pad (s : State) : (s.reportReturn).pad = s.pad := by unfold State.reportReturn; (repeat split) <;> simp
@[simp] theorem State.reportReturn_panel (s : State) : (s.reportReturn).panel = s.panel := by unfold State.reportReturn; (repeat split) <;> simp
@[simp] theorem State.reportReturn_tracks (s : State) : (s.reportReturn).tracks = s.tracks := by unfold State.reportReturn; (repeat split) <;> simp
@[simp] theorem State.reportReturn_pen (s : State) : (s.reportReturn).pen = s.pen := by unfold State.reportReturn; (repeat split) <;> simp
@[simp] theorem State.reportReturn_palm (s : State) : (s.reportReturn).palm = s.palm := by unfold State.reportReturn; (repeat split) <;> simp
@[simp] theorem State.reportReturn_gesture (s : State) : (s.reportReturn).gesture = s.gesture := by unfold State.reportReturn; (repeat split) <;> simp
@[simp] theorem State.reportReturn_store (s : State) : (s.reportReturn).store = s.store := by unfold State.reportReturn; (repeat split) <;> simp
@[simp] theorem State.reportReturn_command (s : State) : (s.reportReturn).command = s.command := by unfold State.reportReturn; (repeat split) <;> simp
@[simp] theorem State.reportReturn_queue (s : State) : (s.reportReturn).queue = s.queue := by unfold State.reportReturn; (repeat split) <;> simp
@[simp] theorem State.reportReturn_port (s : State) : (s.reportReturn).port = s.port := by unfold State.reportReturn; (repeat split) <;> simp
@[simp] theorem State.reportReturn_inReset (s : State) : (s.reportReturn).inReset = s.inReset := by unfold State.reportReturn; (repeat split) <;> simp
@[simp] theorem State.reportReturn_freeCount (s : State) : (s.reportReturn).freeCount = s.freeCount := by unfold State.reportReturn; (repeat split) <;> simp
@[simp] theorem State.reportReturn_pending (s : State) : (s.reportReturn).pending = s.pending := by unfold State.reportReturn; (repeat split) <;> simp

@[simp] theorem State.takeReturn_pad (s : State) : (s.takeReturn).pad = s.pad := by simp [State.takeReturn]
@[simp] theorem State.takeReturn_panel (s : State) : (s.takeReturn).panel = s.panel := by simp [State.takeReturn]
@[simp] theorem State.takeReturn_tracks (s : State) : (s.takeReturn).tracks = s.tracks := by simp [State.takeReturn]
@[simp] theorem State.takeReturn_pen (s : State) : (s.takeReturn).pen = s.pen := by simp [State.takeReturn]
@[simp] theorem State.takeReturn_palm (s : State) : (s.takeReturn).palm = s.palm := by simp [State.takeReturn]
@[simp] theorem State.takeReturn_gesture (s : State) : (s.takeReturn).gesture = s.gesture := by simp [State.takeReturn]
@[simp] theorem State.takeReturn_store (s : State) : (s.takeReturn).store = s.store := by simp [State.takeReturn]
@[simp] theorem State.takeReturn_command (s : State) : (s.takeReturn).command = s.command := by simp [State.takeReturn]
@[simp] theorem State.takeReturn_queue (s : State) : (s.takeReturn).queue = s.queue := by simp [State.takeReturn]
@[simp] theorem State.takeReturn_port (s : State) : (s.takeReturn).port = s.port := by simp [State.takeReturn]
@[simp] theorem State.takeReturn_inReset (s : State) : (s.takeReturn).inReset = s.inReset := by simp [State.takeReturn]
@[simp] theorem State.takeReturn_freeCount (s : State) : (s.takeReturn).freeCount = s.freeCount := by simp [State.takeReturn]
@[simp] theorem State.takeReturn_pending (s : State) : (s.takeReturn).pending = s.pending := by simp [State.takeReturn]

@[simp] theorem State.afterReads_padLink (t : Table) (k : Bank) (ns : List Nat) (s : State) :
    (State.afterReads t k ns s).padLink = s.padLink := by
  induction ns generalizing s with
  | nil => rfl
  | cons n ns ih => simp [State.afterReads, ih]

@[simp] theorem State.afterReads_panelLink (t : Table) (k : Bank) (ns : List Nat) (s : State) :
    (State.afterReads t k ns s).panelLink = s.panelLink := by
  induction ns generalizing s with
  | nil => rfl
  | cons n ns ih => simp [State.afterReads, ih]

@[simp] theorem State.afterReads_pad (t : Table) (k : Bank) (ns : List Nat) (s : State) :
    (State.afterReads t k ns s).pad = s.pad := by
  induction ns generalizing s with
  | nil => rfl
  | cons n ns ih => simp [State.afterReads, ih]

@[simp] theorem State.afterReads_panel (t : Table) (k : Bank) (ns : List Nat) (s : State) :
    (State.afterReads t k ns s).panel = s.panel := by
  induction ns generalizing s with
  | nil => rfl
  | cons n ns ih => simp [State.afterReads, ih]

@[simp] theorem State.afterReads_tracks (t : Table) (k : Bank) (ns : List Nat) (s : State) :
    (State.afterReads t k ns s).tracks = s.tracks := by
  induction ns generalizing s with
  | nil => rfl
  | cons n ns ih => simp [State.afterReads, ih]

@[simp] theorem State.afterReads_pen (t : Table) (k : Bank) (ns : List Nat) (s : State) :
    (State.afterReads t k ns s).pen = s.pen := by
  induction ns generalizing s with
  | nil => rfl
  | cons n ns ih => simp [State.afterReads, ih]

@[simp] theorem State.afterReads_palm (t : Table) (k : Bank) (ns : List Nat) (s : State) :
    (State.afterReads t k ns s).palm = s.palm := by
  induction ns generalizing s with
  | nil => rfl
  | cons n ns ih => simp [State.afterReads, ih]

@[simp] theorem State.afterReads_gesture (t : Table) (k : Bank) (ns : List Nat) (s : State) :
    (State.afterReads t k ns s).gesture = s.gesture := by
  induction ns generalizing s with
  | nil => rfl
  | cons n ns ih => simp [State.afterReads, ih]

@[simp] theorem State.afterReads_mode (t : Table) (k : Bank) (ns : List Nat) (s : State) :
    (State.afterReads t k ns s).mode = s.mode := by
  induction ns generalizing s with
  | nil => rfl
  | cons n ns ih => simp [State.afterReads, ih]

@[simp] theorem State.afterReads_command (t : Table) (k : Bank) (ns : List Nat) (s : State) :
    (State.afterReads t k ns s).command = s.command := by
  induction ns generalizing s with
  | nil => rfl
  | cons n ns ih => simp [State.afterReads, ih]

@[simp] theorem State.afterReads_port (t : Table) (k : Bank) (ns : List Nat) (s : State) :
    (State.afterReads t k ns s).port = s.port := by
  induction ns generalizing s with
  | nil => rfl
  | cons n ns ih => simp [State.afterReads, ih]

@[simp] theorem State.afterReads_inReset (t : Table) (k : Bank) (ns : List Nat) (s : State) :
    (State.afterReads t k ns s).inReset = s.inReset := by
  induction ns generalizing s with
  | nil => rfl
  | cons n ns ih => simp [State.afterReads, ih]

@[simp] theorem State.afterReads_freeCount (t : Table) (k : Bank) (ns : List Nat) (s : State) :
    (State.afterReads t k ns s).freeCount = s.freeCount := by
  induction ns generalizing s with
  | nil => rfl
  | cons n ns ih => simp [State.afterReads, ih]

@[simp] theorem State.afterReads_pending (t : Table) (k : Bank) (ns : List Nat) (s : State) :
    (State.afterReads t k ns s).pending = s.pending := by
  induction ns generalizing s with
  | nil => rfl
  | cons n ns ih => simp [State.afterReads, ih]

end Sys2Proof.Machine
end

