-- ==== Sys2Proof/Laws/Settle.lean ====
section
/-! SUPPORT. What a command does on a state with no at-once step due, and what an at-once row does when its step is. -/

namespace Sys2Proof.Machine

theorem State.settle_of_none {s : State} (h : s.nextDue = none) : s.settle = s := by
  simp [State.settle, State.settleBy, h]

/-- With nothing due, no at-once step is due. -/
theorem State.isDue_of_none {s : State} (h : s.nextDue = none) (d : Due) : s.isDue d = false := by
  have h' := List.find?_eq_none.1 h
  have hm : d ∈ Due.all := by
    cases d with
    | forcedEnd f => cases f <;> decide
    | senseTake f => cases f <;> decide
    | _ => decide
  simpa using h' d hm

theorem ordinary_of_quiet {s : State} (h : Quiet s) (f : State → State) : ordinary f s = .next (f s).finish := by
  simp [ordinary, afterDue, State.beforeEntry, h.1, State.settle_of_none h.2.1, h.2.2]

theorem afterDue_of_none {s : State} (hr : s.inReset = false) (hd : s.nextDue = none) (f : State → State) :
    afterDue f s = .next (f s).finish := by
  simp [afterDue, hr, State.settle_of_none hd]

/-- No response waits, or it finds no room: nothing enters (R160). -/
theorem State.enterWaiting_of_not_due {s : State} (h : s.entryDue = false) : s.enterWaiting = s := by
  unfold State.enterWaiting
  split
  · rename_i r hr
    split
    · simp_all [State.entryDue]
    · rfl
  · rfl

/-- A response that has room enters, and the slot is FREE (R160, R170). -/
theorem State.enterWaiting_of_room {s : State} {r : Response} (h : s.queue.waiting = some r)
    (hl : s.queue.records.length < 48) :
    s.enterWaiting = { s with
      queue := { s.queue with waiting := none }.enter (.response r), command := { s.command with slot := none } } := by
  simp [State.enterWaiting, h, hl]

/-- With no response waiting nothing enters. -/
theorem State.enterWaiting_of_none {s : State} (h : s.queue.waiting = none) : s.enterWaiting = s :=
  State.enterWaiting_of_not_due (by simp [State.entryDue, h])

theorem State.entryDue_iff (s : State) :
    s.entryDue = true ↔ ∃ r, s.queue.waiting = some r ∧ s.queue.records.length < 48 := by
  simp [State.entryDue, Option.isSome_iff_exists]

/-- The entry of what waits makes no at-once step due, and ends none. -/
theorem State.enterWaiting_nextDue (s : State) : s.enterWaiting.nextDue = s.nextDue := by
  unfold State.enterWaiting
  repeat' split
  all_goals rfl

theorem State.enterWaiting_inReset (s : State) : s.enterWaiting.inReset = s.inReset := by
  unfold State.enterWaiting
  repeat' split
  all_goals rfl

/-- Then nothing waits, or 48 records are queued (R160). -/
theorem State.enterWaiting_entryDue (s : State) : s.enterWaiting.entryDue = false := by
  unfold State.enterWaiting State.entryDue
  split
  · split
    · rfl
    · simp; omega
  · simp_all

/-- A response that has room enters after the event of a command that comes together with the removal (R160). -/
theorem ordinary_of_entry {s : State} (hr : s.inReset = false) (hd : s.nextDue = none) (he : s.entryDue = true)
    (f : State → State) : ordinary f s = .next (f s).enterWaiting.finish := by
  simp [ordinary, afterDue_of_none hr hd, State.beforeEntry, he]

theorem hostRow_of_quiet {s : State} (h : Quiet s) (f : State → State) : hostRow f s = .next (f s).finish := by
  rw [hostRow, afterDue_of_none h.1 h.2.1, State.enterWaiting_of_not_due h.2.2]

/-- In NONE a packet's row sends it to its consumer (R166). -/
theorem hostPacket_of_ready {s : State} (h : HostReady s) (ch : BitVec 2) (k : BitVec 6) (p : Bytes) :
    hostPacket ch k p s = .next (s.takePacket ch k p).finish := by
  rw [hostPacket, hostRow_of_quiet h.1, State.endPacket, h.2]

/-- A packet's row in a read or an ignored transfer has no effect but the timers' following (R164). -/
theorem hostPacket_of_busy {s : State} (h : Quiet s) (hp : s.port.transfer ≠ .none)
    (hw : ∀ got, s.port.transfer ≠ .write got) (ch : BitVec 2) (k : BitVec 6) (p : Bytes) :
    hostPacket ch k p s = .next s.finish := by
  rw [hostPacket, hostRow_of_quiet h, State.endPacket]
  split <;> simp_all

/-- A CONTROL packet of a command that the slot governs goes to it by its kind (R166, R169). -/
theorem takePacket_command (s : State) {c : Command} (hc : c ≠ .softReset) (p : Bytes) :
    s.takePacket controlChannel c.code p = s.takeControl c p (c.run p) := by
  cases c <;> first | exact absurd rfl hc | rfl

theorem takePacket_softReset (s : State) (p : Bytes) :
    s.takePacket controlChannel Command.softReset.code p = s.takeSoftReset := rfl

theorem takePacket_unknown (s : State) {k : BitVec 6} (hk : isCommandKind k = false) (p : Bytes) :
    s.takePacket controlChannel k p = s.takeUnknown k := by
  have h : commandOf k = none := by
    simpa [commandOf, isCommandKind, List.find?_eq_none, List.any_eq_false] using hk
  simp [State.takePacket, State.takeControlPacket, h]

theorem takePacket_link (s : State) (l : Surface) (k : BitVec 6) (p : Bytes) :
    s.takePacket (linkChannel l) k p = s.passDown l { kind := k, payload := p } := by
  cases l <;> rfl

theorem atOnce_of_due {s : State} {d : Due} (h : s.inReset = false) (hd : s.isDue d = true) :
    atOnce d s = .next (s.perform d).finish := by
  simp [atOnce, h, hd]

theorem atOnce_of_quiet {s : State} (h : Quiet s) (d : Due) : atOnce d s = .next s := by
  simp [atOnce, h.1, State.isDue_of_none h.2.1 d, State.settle_of_none h.2.1]

/-- In reset a command from outside changes nothing (R148). -/
theorem afterDue_in_reset {s : State} (h : s.inReset = true) (f : State → State) : afterDue f s = .next s := by
  simp [afterDue, h]

theorem atOnce_in_reset {s : State} (h : s.inReset = true) (d : Due) : atOnce d s = .next s := by
  simp [atOnce, h]

theorem takeControl_of_free {s : State} (h : SlotFree s) (c : Command) (p : Bytes) (run : State → State)
    (hl : c.lengthOk p = true) : s.takeControl c p run = run (s.occupy c.code) := by
  simp [State.takeControl, State.takeFree, State.slotBusy, h.1, h.2, hl]

/-- A management command that the slot and its length let run. -/
theorem command_of_ready {s : State} (h : CommandReady s) {c : Command} (hc : c ≠ .softReset) (p : Bytes)
    (hl : c.lengthOk p = true) : hostCommand c p s = .next (c.run p (s.occupy c.code)).finish := by
  rw [hostCommand, hostPacket_of_ready h.1, takePacket_command s hc, takeControl_of_free h.2 c p _ hl]

theorem takeControl_of_badLength {s : State} (h : SlotFree s) (c : Command) (p : Bytes) (run : State → State)
    (hl : c.lengthOk p = false) : s.takeControl c p run = (s.occupy c.code).respond c.code .badArg [] := by
  simp [State.takeControl, State.takeFree, State.slotBusy, h.1, h.2, hl]

/-- A command in a BUSY slot is answered BUSY (R169). -/
theorem takeControl_of_busy {s : State} (h : s.slotBusy = true) (c : Command) (p : Bytes) (run : State → State) :
    s.takeControl c p run = { s with queue := s.queue.offerBusy c.code } := by
  rw [State.takeControl, if_pos h]

/-- What a settling loop keeps if every at-once step and the timers' following keep it. -/
theorem State.settleBy_keeps {P : State → Prop} (hp : ∀ s d, P s → s.isDue d = true → P (s.perform d))
    (hf : ∀ s, P s → P s.finish) (n : Nat) (s : State) (h : P s) : P (State.settleBy n s) := by
  induction n generalizing s with
  | zero => exact h
  | succ n ih =>
    unfold State.settleBy
    split
    · rename_i d hd
      exact ih _ (hf _ (hp _ _ h (List.find?_some hd)))
    · exact h

theorem State.settle_keeps {P : State → Prop} (hp : ∀ s d, P s → s.isDue d = true → P (s.perform d))
    (hf : ∀ s, P s → P s.finish) (s : State) (h : P s) : P s.settle := State.settleBy_keeps hp hf 64 s h

/-- What a command from outside keeps. -/
theorem afterDue_keeps {P : State → Prop} (hp : ∀ s d, P s → s.isDue d = true → P (s.perform d))
    (hf : ∀ s, P s → P s.finish) {f : State → State} (hg : ∀ s, P s → P (f s)) {s t : State} (h : P s)
    (ht : afterDue f s = .next t) : P t := by
  simp only [afterDue, Host.Outcome.next.injEq] at ht
  subst ht
  split
  · exact h
  · exact hf _ (hg _ (State.settle_keeps hp hf s h))

/-- What an at-once row keeps. -/
theorem atOnce_keeps {P : State → Prop} (hp : ∀ s d, P s → s.isDue d = true → P (s.perform d))
    (hf : ∀ s, P s → P s.finish) {d : Due} {s t : State} (h : P s) (ht : atOnce d s = .next t) : P t := by
  simp only [atOnce, Host.Outcome.next.injEq] at ht
  subst ht
  split
  · exact h
  · split
    · exact hf _ (hp _ _ h (by assumption))
    · exact State.settle_keeps hp hf s h

/-- Every command that is neither an at-once row nor a reset row acts after what is due. -/
theorem exec_afterDue (c : Instr) (hd : dueOf c = none) (hr : resetRow c = false) :
    ∃ f, ∀ s, exec c s = afterDue f s := by
  simp only [exec, ordinary, hostRow, hostPacket, hostCommand, execAutoIdleExpiry, execBtnPress, execBtnRelease, execClearCounters, execCommit,
    execCopyEnd, execDiscardedWriteTransfer, execForcedEnd, execGetStatus, execIdReply, execIdentify,
    execIdentityReplyTimeout, execIgnoredTransfer, execKeyact, execLingerExpiry, execLoadAbort, execLoadBegin,
    execLoadEnd, execLoadRows, execLoadStepTimeout, execLockZones, execPassDown, execPassUp, execPenDrop,
    execPenFrame, execPenFrameCompletion, execPenFrameTake, execPowerOnReset, execQueuedResponseEntry,
    execReadRows, execReadTransferEnd, execReadTransferTaken, execResetNAssert, execResetNRelease, execRevert,
    execScanAck, execScanSettleTimeout, execSenseFrame, execSenseFrameCompletion, execSenseFrameTake,
    execSetMode, execSetModeStart, execSetNotices, execSetPosture, execSlotRequest, execSoftReset,
    execSoftResetEffect, execStallWatchExpiry, execSwap, execTransitionComplete, execTransmissionComplete,
    execTypingGuardExpiry, execUnknown, execVerify, execVerifyPassEnd, execWake, execWakeDwellExpiry,
    execWakePhaseEnd]
  cases c <;> simp only [dueOf, resetRow, reduceCtorEq] at hd hr <;> exact ⟨_, fun _ => rfl⟩

theorem exec_atOnce {c : Instr} {d : Due} (h : dueOf c = some d) (s : State) : exec c s = atOnce d s := by
  cases c <;> simp [dueOf] at h <;> subst h <;> rfl

end Sys2Proof.Machine
end

