-- ==== Sys2Proof/Laws/Exec.lean ====
section
/-! SUPPORT. What each command does in the states in which it acts: one equation per constructor of `Instr`, for the
provers to cite instead of unfolding the dispatch. -/

namespace Sys2Proof.Machine

theorem exec_senseFrame {s : State} (h : Quiet s) (l : Surface) (bs : Bytes) :
    exec (.senseFrame l bs) s = .next (State.finish (s.packetArrives l bs)) :=
  ordinary_of_quiet h (fun t => t.packetArrives l bs)

theorem exec_penFrame {s : State} (h : Quiet s) (l : Surface) (bs : Bytes) :
    exec (.penFrame l bs) s = .next (State.finish (s.packetArrives l bs)) :=
  ordinary_of_quiet h (fun t => t.packetArrives l bs)

theorem exec_scanAck {s : State} (h : Quiet s) (l : Surface) (bs : Bytes) :
    exec (.scanAck l bs) s = .next (State.finish (s.packetArrives l bs)) :=
  ordinary_of_quiet h (fun t => t.packetArrives l bs)

theorem exec_wake {s : State} (h : Quiet s) (l : Surface) (bs : Bytes) :
    exec (.wake l bs) s = .next (State.finish (s.packetArrives l bs)) :=
  ordinary_of_quiet h (fun t => t.packetArrives l bs)

theorem exec_idReply {s : State} (h : Quiet s) (l : Surface) (bs : Bytes) :
    exec (.idReply l bs) s = .next (State.finish (s.packetArrives l bs)) :=
  ordinary_of_quiet h (fun t => t.packetArrives l bs)

theorem exec_passUp {s : State} (h : Quiet s) (l : Surface) (bs : Bytes) :
    exec (.passUp l bs) s = .next (State.finish (s.packetArrives l bs)) :=
  ordinary_of_quiet h (fun t => t.packetArrives l bs)

theorem exec_stallWatchExpiry {s : State} (h : Quiet s) (l : Surface) :
    exec (.stallWatchExpiry l) s = .next (State.finish (if (s.link l).watch.isSome then s.enterStalled l .silence else s)) :=
  ordinary_of_quiet h (fun t => if (t.link l).watch.isSome then t.enterStalled l .silence else t)

theorem exec_identityReplyTimeout {s : State} (h : Quiet s) (l : Surface) :
    exec (.identityReplyTimeout l) s = .next (State.finish (s.expireQuery l)) :=
  ordinary_of_quiet h (fun t => t.expireQuery l)

theorem exec_scanSettleTimeout {s : State} (h : Quiet s) (l : Surface) :
    exec (.scanSettleTimeout l) s = .next (State.finish (s.expireSettle l)) :=
  ordinary_of_quiet h (fun t => t.expireSettle l)

theorem exec_transmissionComplete {s : State} (h : Quiet s) (l : Surface) :
    exec (.transmissionComplete l) s = .next (State.finish (s.completeTransmission l)) :=
  ordinary_of_quiet h (fun t => t.completeTransmission l)

theorem exec_senseFrameTake {s : State} (h : s.inReset = false) (f : Surface) (hd : s.isDue (.senseTake f) = true) :
    exec (.senseFrameTake f) s = .next (s.perform (.senseTake f)).finish :=
  atOnce_of_due h hd

theorem exec_slotRequest {s : State} (h : Quiet s) (who : Requesters) :
    exec (.slotRequest who) s = .next (State.finish (s.allocate who)) :=
  ordinary_of_quiet h (fun t => t.allocate who)

theorem exec_senseFrameCompletion {s : State} (h : Quiet s) (f : Surface) :
    exec (.senseFrameCompletion f) s = .next (State.finish (s.completeSense f)) :=
  ordinary_of_quiet h (fun t => t.completeSense f)

theorem exec_forcedEnd {s : State} (h : s.inReset = false) (f : Surface) (hd : s.isDue (.forcedEnd f) = true) :
    exec (.forcedEnd f) s = .next (s.perform (.forcedEnd f)).finish :=
  atOnce_of_due h hd

theorem exec_penFrameTake {s : State} (h : s.inReset = false) (hd : s.isDue .penTake = true) :
    exec .penFrameTake s = .next (s.perform .penTake).finish :=
  atOnce_of_due h hd

theorem exec_penFrameCompletion {s : State} (h : Quiet s) :
    exec .penFrameCompletion s = .next (State.finish (State.completePen s)) :=
  ordinary_of_quiet h State.completePen

theorem exec_penDrop {s : State} (h : s.inReset = false) (hd : s.isDue .penDrop = true) :
    exec .penDrop s = .next (s.perform .penDrop).finish :=
  atOnce_of_due h hd

theorem exec_lingerExpiry {s : State} (h : Quiet s) :
    exec .lingerExpiry s = .next (State.finish (State.expireLinger s)) :=
  ordinary_of_quiet h State.expireLinger

theorem exec_keyact {s : State} (h : Quiet s) :
    exec .keyact s = .next (State.finish (State.keyPulse s)) :=
  ordinary_of_quiet h State.keyPulse

theorem exec_typingGuardExpiry {s : State} (h : Quiet s) :
    exec .typingGuardExpiry s = .next (State.finish ({ s with palm := { s.palm with typing := none } })) :=
  ordinary_of_quiet h (fun t => { t with palm := { t.palm with typing := none } })

theorem exec_btnPress {s : State} (h : Quiet s) :
    exec .btnPress s = .next (State.finish (State.pressButton s)) :=
  ordinary_of_quiet h State.pressButton

theorem exec_btnRelease {s : State} (h : Quiet s) :
    exec .btnRelease s = .next (State.finish (State.releaseButton s)) :=
  ordinary_of_quiet h State.releaseButton

theorem exec_autoIdleExpiry {s : State} (h : Quiet s) :
    exec .autoIdleExpiry s = .next (State.finish (State.expireAutoIdle s)) :=
  ordinary_of_quiet h State.expireAutoIdle

theorem exec_wakeDwellExpiry {s : State} (h : Quiet s) :
    exec .wakeDwellExpiry s = .next (State.finish ({ s with mode := { s.mode with dwell := none } })) :=
  ordinary_of_quiet h (fun t => { t with mode := { t.mode with dwell := none } })

theorem exec_wakePhaseEnd {s : State} (h : s.inReset = false) (hd : s.isDue .wakePhaseEnd = true) :
    exec .wakePhaseEnd s = .next (s.perform .wakePhaseEnd).finish :=
  atOnce_of_due h hd

theorem exec_transitionComplete {s : State} (h : s.inReset = false) (hd : s.isDue .transitionComplete = true) :
    exec .transitionComplete s = .next (s.perform .transitionComplete).finish :=
  atOnce_of_due h hd

theorem exec_setModeStart {s : State} (h : s.inReset = false) (hd : s.isDue .setModeStart = true) :
    exec .setModeStart s = .next (s.perform .setModeStart).finish :=
  atOnce_of_due h hd

theorem exec_swap {s : State} (h : s.inReset = false) (hd : s.isDue .swap = true) :
    exec .swap s = .next (s.perform .swap).finish :=
  atOnce_of_due h hd

theorem exec_copyEnd {s : State} (h : Quiet s) (t : Table) :
    exec (.copyEnd t) s = .next (State.finish (s.endCopy t)) :=
  ordinary_of_quiet h (fun u => u.endCopy t)

theorem exec_verifyPassEnd {s : State} (h : Quiet s) :
    exec .verifyPassEnd s = .next (State.finish (State.endVerify s)) :=
  ordinary_of_quiet h State.endVerify

theorem exec_loadStepTimeout {s : State} (h : Quiet s) :
    exec .loadStepTimeout s = .next (State.finish (State.loadTimeout s)) :=
  ordinary_of_quiet h State.loadTimeout

theorem exec_queuedResponseEntry {s : State} (hr : s.inReset = false) (hd : s.nextDue = none) :
    exec .queuedResponseEntry s = .next (State.finish (State.enterWaiting s)) :=
  afterDue_of_none hr hd State.enterWaiting

theorem exec_readTransferTaken {s : State} (h : HostReady s) :
    exec .readTransferTaken s = .next (State.finish (State.takeRead s)) :=
  by
  rw [show exec .readTransferTaken s = hostRow State.takeRead s from rfl, hostRow_of_quiet h.1]

theorem exec_readTransferEnd {s : State} (h : Quiet s) (clocked : Nat) :
    exec (.readTransferEnd clocked) s = .next (State.finish (s.endRead clocked)) :=
  hostRow_of_quiet h (fun t => t.endRead clocked)

theorem exec_ignoredTransfer {s : State} (h : Quiet s) (first : Byte) :
    exec (.ignoredTransfer first) s = .next (State.finish (s.endIgnored first)) :=
  hostRow_of_quiet h (fun t => t.endIgnored first)

theorem exec_passDown {s : State} (h : HostReady s) (l : Surface) (kind : BitVec 6) (p : Bytes) :
    exec (.passDown l kind p) s = .next (State.finish (s.passDown l { kind := kind, payload := p })) :=
  (hostPacket_of_ready h _ _ _).trans (by rw [takePacket_link])

theorem exec_unknown {s : State} (h : HostReady s) {kind : BitVec 6} (hk : isCommandKind kind = false) (p : Bytes) :
    exec (.unknown kind p) s = .next (State.finish (s.takeUnknown kind)) :=
  (hostPacket_of_ready h _ _ _).trans (by rw [takePacket_unknown s hk])

theorem exec_identify {s : State} (h : CommandReady s) (p : Bytes) (hl : Command.identify.lengthOk p = true) :
    exec (.identify p) s = .next (State.finish ((s.occupy Command.identify.code).runIdentify)) :=
  command_of_ready h (c := .identify) (by decide) p hl

theorem exec_getStatus {s : State} (h : CommandReady s) (p : Bytes) (hl : Command.getStatus.lengthOk p = true) :
    exec (.getStatus p) s = .next (State.finish ((s.occupy Command.getStatus.code).runGetStatus)) :=
  command_of_ready h (c := .getStatus) (by decide) p hl

theorem exec_setMode {s : State} (h : CommandReady s) (p : Bytes) (hl : Command.setMode.lengthOk p = true) :
    exec (.setMode p) s = .next (State.finish ((s.occupy Command.setMode.code).runSetMode p)) :=
  command_of_ready h (c := .setMode) (by decide) p hl

theorem exec_setPosture {s : State} (h : CommandReady s) (p : Bytes) (hl : Command.setPosture.lengthOk p = true) :
    exec (.setPosture p) s = .next (State.finish ((s.occupy Command.setPosture.code).runSetPosture p)) :=
  command_of_ready h (c := .setPosture) (by decide) p hl

theorem exec_setNotices {s : State} (h : CommandReady s) (p : Bytes) (hl : Command.setNotices.lengthOk p = true) :
    exec (.setNotices p) s = .next (State.finish ((s.occupy Command.setNotices.code).runSetNotices p)) :=
  command_of_ready h (c := .setNotices) (by decide) p hl

theorem exec_loadBegin {s : State} (h : CommandReady s) (p : Bytes) (hl : Command.loadBegin.lengthOk p = true) :
    exec (.loadBegin p) s = .next (State.finish ((s.occupy Command.loadBegin.code).runLoadBegin p)) :=
  command_of_ready h (c := .loadBegin) (by decide) p hl

theorem exec_loadRows {s : State} (h : CommandReady s) (p : Bytes) (hl : Command.loadRows.lengthOk p = true) :
    exec (.loadRows p) s = .next (State.finish ((s.occupy Command.loadRows.code).runLoadRows p)) :=
  command_of_ready h (c := .loadRows) (by decide) p hl

theorem exec_loadEnd {s : State} (h : CommandReady s) (p : Bytes) (hl : Command.loadEnd.lengthOk p = true) :
    exec (.loadEnd p) s = .next (State.finish ((s.occupy Command.loadEnd.code).runLoadEnd p)) :=
  command_of_ready h (c := .loadEnd) (by decide) p hl

theorem exec_loadAbort {s : State} (h : CommandReady s) (p : Bytes) (hl : Command.loadAbort.lengthOk p = true) :
    exec (.loadAbort p) s = .next (State.finish ((s.occupy Command.loadAbort.code).runLoadAbort)) :=
  command_of_ready h (c := .loadAbort) (by decide) p hl

theorem exec_commit {s : State} (h : CommandReady s) (p : Bytes) (hl : Command.commit.lengthOk p = true) :
    exec (.commit p) s = .next (State.finish ((s.occupy Command.commit.code).runCommit p)) :=
  command_of_ready h (c := .commit) (by decide) p hl

theorem exec_revert {s : State} (h : CommandReady s) (p : Bytes) (hl : Command.revert.lengthOk p = true) :
    exec (.revert p) s = .next (State.finish ((s.occupy Command.revert.code).runRevert p)) :=
  command_of_ready h (c := .revert) (by decide) p hl

theorem exec_readRows {s : State} (h : CommandReady s) (p : Bytes) (hl : Command.readRows.lengthOk p = true) :
    exec (.readRows p) s = .next (State.finish ((s.occupy Command.readRows.code).runReadRows p)) :=
  command_of_ready h (c := .readRows) (by decide) p hl

theorem exec_verify {s : State} (h : CommandReady s) (p : Bytes) (hl : Command.verify.lengthOk p = true) :
    exec (.verify p) s = .next (State.finish ((s.occupy Command.verify.code).runVerify p)) :=
  command_of_ready h (c := .verify) (by decide) p hl

theorem exec_lockZones {s : State} (h : CommandReady s) (p : Bytes) (hl : Command.lockZones.lengthOk p = true) :
    exec (.lockZones p) s = .next (State.finish ((s.occupy Command.lockZones.code).runLockZones p)) :=
  command_of_ready h (c := .lockZones) (by decide) p hl

theorem exec_clearCounters {s : State} (h : CommandReady s) (p : Bytes) (hl : Command.clearCounters.lengthOk p = true) :
    exec (.clearCounters p) s = .next (State.finish ((s.occupy Command.clearCounters.code).runClearCounters)) :=
  command_of_ready h (c := .clearCounters) (by decide) p hl

theorem exec_softReset {s : State} (h : HostReady s) (p : Bytes) :
    exec (.softReset p) s = .next (State.finish (State.takeSoftReset s)) :=
  (hostPacket_of_ready h _ _ _).trans (by rw [takePacket_softReset])

theorem exec_softResetEffect {s : State} (h : s.inReset = false) (hd : s.isDue .softReset = true) :
    exec .softResetEffect s = .next (s.perform .softReset).finish :=
  atOnce_of_due h hd

theorem exec_discardedWriteTransfer {s : State} (h : Quiet s) (bs : Bytes) :
    exec (.discardedWriteTransfer bs) s = .next (State.finish (s.endCollected bs)) :=
  hostRow_of_quiet h (fun t => t.endCollected bs)

/-! ## Keeping a relation through every step -/

/-- The effect of a command that is neither an at-once row nor a reset row, the entry of a waiting response apart. -/
def effectOf : Instr → State → State
  | .senseFrame l bs => (fun t => t.packetArrives l bs)
  | .penFrame l bs => (fun t => t.packetArrives l bs)
  | .scanAck l bs => (fun t => t.packetArrives l bs)
  | .wake l bs => (fun t => t.packetArrives l bs)
  | .idReply l bs => (fun t => t.packetArrives l bs)
  | .passUp l bs => (fun t => t.packetArrives l bs)
  | .stallWatchExpiry l => (fun t => if (t.link l).watch.isSome then t.enterStalled l .silence else t)
  | .identityReplyTimeout l => (fun t => t.expireQuery l)
  | .scanSettleTimeout l => (fun t => t.expireSettle l)
  | .transmissionComplete l => (fun t => t.completeTransmission l)
  | .slotRequest who => (fun t => t.allocate who)
  | .senseFrameCompletion f => (fun t => t.completeSense f)
  | .penFrameCompletion => State.completePen
  | .lingerExpiry => State.expireLinger
  | .keyact => State.keyPulse
  | .typingGuardExpiry => (fun t => { t with palm := { t.palm with typing := none } })
  | .btnPress => State.pressButton
  | .btnRelease => State.releaseButton
  | .autoIdleExpiry => State.expireAutoIdle
  | .wakeDwellExpiry => (fun t => { t with mode := { t.mode with dwell := none } })
  | .copyEnd t => (fun u => u.endCopy t)
  | .verifyPassEnd => State.endVerify
  | .loadStepTimeout => State.loadTimeout
  | .readTransferTaken => fun v => v.takeRead
  | .readTransferEnd clocked => fun v => v.endRead clocked
  | .ignoredTransfer first => fun v => v.endIgnored first
  | .passDown l kind p => fun v => v.endPacket (linkChannel l) kind p
  | .unknown kind p => fun v => v.endPacket controlChannel kind p
  | .identify p => fun v => v.endPacket controlChannel Command.identify.code p
  | .getStatus p => fun v => v.endPacket controlChannel Command.getStatus.code p
  | .setMode p => fun v => v.endPacket controlChannel Command.setMode.code p
  | .setPosture p => fun v => v.endPacket controlChannel Command.setPosture.code p
  | .setNotices p => fun v => v.endPacket controlChannel Command.setNotices.code p
  | .loadBegin p => fun v => v.endPacket controlChannel Command.loadBegin.code p
  | .loadRows p => fun v => v.endPacket controlChannel Command.loadRows.code p
  | .loadEnd p => fun v => v.endPacket controlChannel Command.loadEnd.code p
  | .loadAbort p => fun v => v.endPacket controlChannel Command.loadAbort.code p
  | .commit p => fun v => v.endPacket controlChannel Command.commit.code p
  | .revert p => fun v => v.endPacket controlChannel Command.revert.code p
  | .readRows p => fun v => v.endPacket controlChannel Command.readRows.code p
  | .verify p => fun v => v.endPacket controlChannel Command.verify.code p
  | .lockZones p => fun v => v.endPacket controlChannel Command.lockZones.code p
  | .clearCounters p => fun v => v.endPacket controlChannel Command.clearCounters.code p
  | .softReset p => fun v => v.endPacket controlChannel Command.softReset.code p
  | .discardedWriteTransfer bs => fun v => v.endCollected bs
  | _ => fun v => v

/-- A command's effect on a state with no at-once step due, with the entry of a waiting response (R160). -/
def runOf (c : Instr) (s : State) : State :=
  if portRow c || c == .queuedResponseEntry then effectOf c s.enterWaiting else s.beforeEntry (effectOf c)

theorem exec_runOf (c : Instr) (hd : dueOf c = none) (hr : resetRow c = false) (s : State) :
    exec c s = afterDue (runOf c) s := by
  cases c <;> simp only [dueOf, resetRow, reduceCtorEq] at hd hr <;> rfl

/-- What a command's effect and the entry of a waiting response keep, both together keep. -/
theorem runOf_preserves {P : State → Prop} (he : ∀ s, P s → P s.enterWaiting) {c : Instr}
    (hc : ∀ s, P s → P (effectOf c s)) {s : State} (h : P s) : P (runOf c s) := by
  unfold runOf State.beforeEntry
  split
  · exact hc _ (he s h)
  · split
    · exact he _ (hc s h)
    · exact hc s h

/-- What every step keeps, from what each at-once step, each ordinary command and each reset keeps. -/
theorem step_keeps {P : State → Prop} (hp : ∀ s d, P s → s.isDue d = true → P (s.perform d))
    (hf : ∀ s, P s → P s.finish) (hc : ∀ c s, P s → P (effectOf c s)) (hreset : ∀ s, P s → P s.assertReset)
    (hrel : ∀ s, P s → P s.releaseReset) (hpow : ∀ s, P s → P s.powerOn)
    (hw : ∀ s q, P s → P (s.withPending q)) (he : ∀ s, P s → P s.enterWaiting) {s t : State} (h : P s)
    (hs : step s = .next t) : P t := by
  unfold Machine.step at hs
  split at hs
  · rename_i c rest _
    have hw := hw s rest h
    cases hd : dueOf c with
    | some d => rw [exec_atOnce hd] at hs; exact atOnce_keeps hp hf hw hs
    | none =>
      cases hr : resetRow c with
      | false => rw [exec_runOf c hd hr] at hs; exact afterDue_keeps hp hf (fun _ => runOf_preserves he (hc c)) hw hs
      | true =>
        cases c <;> simp [resetRow] at hr
        · have hs' : Host.Outcome.next (s.withPending rest).assertReset = .next t := hs
          simp only [Host.Outcome.next.injEq] at hs'; subst hs'; exact hreset _ hw
        · have hs' : Host.Outcome.next (s.withPending rest).releaseReset = .next t := hs
          simp only [Host.Outcome.next.injEq] at hs'; subst hs'; exact hrel _ hw
        · have hs' : Host.Outcome.next (s.withPending rest).powerOn = .next t := hs
          simp only [Host.Outcome.next.injEq] at hs'; subst hs'; exact hpow _ hw
  · simp only [Host.Outcome.next.injEq] at hs
    subst hs
    unfold State.idle
    split
    · exact h
    · split
      · exact State.settle_keeps hp hf s h
      · exact he s h

end Sys2Proof.Machine
end

