-- ==== Sys2Proof/Laws/Tracks.lean ====
section
/-! SUPPORT. What the stages of a sense frame keep of every track: its id, its surface, and a HELD state; and what the
gesture step leaves alone. -/

namespace Sys2Proof.Machine

/-- A track after a stage: same id and surface, and still HELD for its reason if it was HELD. -/
def Track.Keeps (t u : Track) : Prop :=
  u.id = t.id ∧ u.surface = t.surface ∧ ∀ r, t.state = .held r → u.state = .held r

theorem Track.Keeps.refl (t : Track) : t.Keeps t := ⟨rfl, rfl, fun _ h => h⟩

theorem Track.Keeps.trans {t u v : Track} (h : t.Keeps u) (h' : u.Keeps v) : t.Keeps v :=
  ⟨h'.1.trans h.1, h'.2.1.trans h.2.1, fun r hr => h'.2.2 r (h.2.2 r hr)⟩

/-- Slot by slot: FREE slots stay FREE, tracks keep what `Track.Keeps` says. -/
def SlotsKept (a b : List (Option Track)) : Prop := List.Forall₂ (Option.Rel Track.Keeps) a b

theorem SlotsKept.refl (a : List (Option Track)) : SlotsKept a a := by
  unfold SlotsKept
  induction a with
  | nil => exact List.Forall₂.nil
  | cons o a ih =>
    refine List.Forall₂.cons ?_ ih
    cases o with
    | none => exact Option.Rel.none
    | some t => exact Option.Rel.some (Track.Keeps.refl t)

theorem SlotsKept.trans {a b c : List (Option Track)} (h : SlotsKept a b) (h' : SlotsKept b c) : SlotsKept a c := by
  unfold SlotsKept at *
  induction h generalizing c with
  | nil => cases h'; exact List.Forall₂.nil
  | cons hr _ ih =>
    cases h' with
    | cons hr' ht =>
      refine List.Forall₂.cons ?_ (ih ht)
      cases hr with
      | none => cases hr'; exact Option.Rel.none
      | some k =>
        cases hr' with
        | some k' => exact Option.Rel.some (k.trans k')

theorem SlotsKept.length {a b : List (Option Track)} (h : SlotsKept a b) : b.length = a.length :=
  (List.Forall₂.length_eq h).symm

theorem SlotsKept.of_map {g : Track → Track} (hg : ∀ t : Track, t.Keeps (g t)) (a : List (Option Track)) :
    SlotsKept a (a.map (Option.map g)) := by
  unfold SlotsKept
  induction a with
  | nil => exact List.Forall₂.nil
  | cons o a ih =>
    refine List.Forall₂.cons ?_ ih
    cases o with
    | none => exact Option.Rel.none
    | some t => exact Option.Rel.some (hg t)

theorem SlotsKept.of_modify {g : Track → Track} (hg : ∀ t : Track, t.Keeps (g t)) (i : Nat) (a : List (Option Track)) :
    SlotsKept a (a.modify i (Option.map g)) := by
  unfold SlotsKept
  induction a generalizing i with
  | nil => rw [List.modify_nil]; exact List.Forall₂.nil
  | cons o a ih =>
    cases i with
    | zero =>
      rw [List.modify_zero_cons]
      refine List.Forall₂.cons ?_ (SlotsKept.refl a)
      cases o with
      | none => exact Option.Rel.none
      | some t => exact Option.Rel.some (hg t)
    | succ i =>
      rw [List.modify_succ_cons]
      refine List.Forall₂.cons ?_ (ih i)
      cases o with
      | none => exact Option.Rel.none
      | some t => exact Option.Rel.some (Track.Keeps.refl t)

/-- A track of the later slots stands in the same slot of the earlier ones. -/
theorem SlotsKept.back {a b : List (Option Track)} (h : SlotsKept a b) {i : Nat} {u : Track}
    (hu : b[i]? = some (some u)) : ∃ t, a[i]? = some (some t) ∧ t.Keeps u := by
  unfold SlotsKept at h
  induction h generalizing i with
  | nil => simp at hu
  | cons hr _ ih =>
    cases i with
    | zero =>
      simp only [List.getElem?_cons_zero, Option.some.injEq] at hu
      subst hu
      cases hr with
      | some k => exact ⟨_, rfl, k⟩
    | succ i => exact ih hu

/-- A track of the earlier slots stands in the same slot of the later ones. -/
theorem SlotsKept.forth {a b : List (Option Track)} (h : SlotsKept a b) {i : Nat} {t : Track}
    (ht : a[i]? = some (some t)) : ∃ u, b[i]? = some (some u) ∧ t.Keeps u := by
  unfold SlotsKept at h
  induction h generalizing i with
  | nil => simp at ht
  | cons hr _ ih =>
    cases i with
    | zero =>
      simp only [List.getElem?_cons_zero, Option.some.injEq] at ht
      subst ht
      cases hr with
      | some k => exact ⟨_, rfl, k⟩
    | succ i => exact ih ht

theorem onTracks_kept {g : Track → Track} (hg : ∀ t : Track, t.Keeps (g t)) (f : Surface) (a : List (Option Track)) :
    SlotsKept a (onTracks f g a) := by
  refine SlotsKept.of_map (g := fun t => if t.surface = f then g t else t) (fun t => ?_) a
  split
  · exact hg t
  · exact Track.Keeps.refl t

/-! ## The stages -/

theorem Track.matchedTo_keeps (t : Track) (c : Candidate) : t.Keeps (t.matchedTo c) := ⟨rfl, rfl, fun _ h => h⟩

theorem Track.unmatched_keeps (t : Track) : t.Keeps t.unmatched := ⟨rfl, rfl, fun _ h => h⟩

theorem matchSlots_kept (f : Surface) (reach : Nat) (a : List (Option Track)) (cs : List Candidate) :
    SlotsKept a (matchSlots f reach a cs).1 := by
  unfold SlotsKept
  induction a generalizing cs with
  | nil => exact List.Forall₂.nil
  | cons o a ih =>
    cases o with
    | none => exact List.Forall₂.cons Option.Rel.none (ih cs)
    | some t =>
      unfold matchSlots
      split
      · split
        · exact List.Forall₂.cons (Option.Rel.some (t.matchedTo_keeps _)) (ih _)
        · exact List.Forall₂.cons (Option.Rel.some t.unmatched_keeps) (ih _)
      · exact List.Forall₂.cons (Option.Rel.some (Track.Keeps.refl t)) (ih _)

/-- A track that is held when it was not is not HELD before. -/
theorem Track.hold_keeps {t : Track} (r : HeldReason) (h : t.unheld = true) : t.Keeps (t.hold r) := by
  refine ⟨rfl, rfl, fun r' h' => ?_⟩
  simp [Track.unheld, h'] at h

theorem Track.retro_keeps (op : SenseOp) (t : Track) : t.Keeps (t.retro op) := by
  unfold Track.retro
  split
  · exact Track.hold_keeps _ (by rename_i h; exact h.1)
  · exact Track.Keeps.refl t

theorem Track.ongoing_keeps (p : Profile) (t : Track) : t.Keeps (t.ongoing p) := by
  unfold Track.ongoing
  split
  · exact Track.hold_keeps _ (by rename_i h; exact h.1)
  · exact Track.Keeps.refl t

theorem Track.confirm_keeps (p : Profile) (t : Track) : t.Keeps (t.confirm p) := by
  unfold Track.confirm
  split
  · rename_i h
    exact ⟨rfl, rfl, fun r hr => by rw [h.1] at hr; cases hr⟩
  · exact Track.Keeps.refl t

theorem Track.ends_keeps (p : Profile) (t : Track) : t.Keeps (t.ends p) := by
  unfold Track.ends Track.ending
  split
  · split
    · exact ⟨rfl, rfl, fun _ h => h⟩
    · rename_i h
      split
      · exact ⟨rfl, rfl, fun r hr => by rw [h] at hr; cases hr⟩
      · exact ⟨rfl, rfl, fun _ h => h⟩
    · exact ⟨rfl, rfl, fun _ h => h⟩
  · exact Track.Keeps.refl t

theorem Track.consume_keeps (t : Track) : t.Keeps t.consume := by
  unfold Track.consume
  split
  · rename_i h
    exact ⟨rfl, rfl, fun r hr => by rw [h] at hr; cases hr⟩
  · exact Track.Keeps.refl t

theorem Track.reported_keeps (t : Track) : t.Keeps t.reported := by
  unfold Track.reported
  split
  · exact ⟨rfl, rfl, fun _ h => h⟩
  · exact Track.Keeps.refl t

theorem reclassify_kept (f : Surface) (op : SenseOp) (a : List (Option Track)) : SlotsKept a (reclassify f op a) := by
  unfold reclassify
  split
  · exact (onTracks_kept (Track.retro_keeps op) f a).trans (onTracks_kept (Track.ongoing_keeps op.profile) f _)
  · exact onTracks_kept (Track.ongoing_keeps op.profile) f a

theorem stagesFourToSix_kept (f : Surface) (op : SenseOp) (a : List (Option Track)) :
    SlotsKept a (stagesFourToSix f op a) :=
  ((reclassify_kept f op a).trans (onTracks_kept (Track.confirm_keeps op.profile) f _)).trans
    (onTracks_kept (Track.ends_keeps op.profile) f _)

theorem markMember_kept (i : Nat) (a : List (Option Track)) : SlotsKept a (markMember i a) :=
  SlotsKept.of_modify (g := fun t => { t with member := true }) (fun _ => ⟨rfl, rfl, fun _ h => h⟩) i a

theorem joinTracks_kept (time : Half) (l : List (Nat × Track)) (c : Context) (a : List (Option Track)) :
    SlotsKept a (joinTracks time l c a).2 := by
  induction l generalizing c a with
  | nil => exact SlotsKept.refl a
  | cons p l ih =>
    unfold joinTracks
    split
    · exact (markMember_kept p.1 a).trans (ih _ _)
    · exact ih _ _

theorem consumeMembers_kept (ms : List Member) (a : List (Option Track)) : SlotsKept a (consumeMembers ms a) := by
  induction ms generalizing a with
  | nil => exact SlotsKept.refl a
  | cons m ms ih =>
    unfold consumeMembers
    split
    · exact ih a
    · exact (SlotsKept.of_modify Track.consume_keeps m.slot a).trans (ih _)

/-! ## The gesture step -/

/-- What a gesture step of a surface leaves alone: everything but the surface's context, the slots' tracks, which it
keeps in the sense of `SlotsKept`, and what reads of GESTURE rows change. -/
structure GestureFrame (f : Surface) (s t : State) : Prop where
  padLink : t.padLink = s.padLink
  panelLink : t.panelLink = s.panelLink
  unit : t.unit f = { s.unit f with context := (t.unit f).context }
  other : t.unit (otherSurface f) = s.unit (otherSurface f)
  slots : SlotsKept s.tracks.slots t.tracks.slots
  nextId : t.tracks.nextId = s.tracks.nextId
  lastServed : t.tracks.lastServed = s.tracks.lastServed
  pen : t.pen = s.pen
  palm : t.palm = s.palm
  gesture : t.gesture = s.gesture
  holds : t.store.holds = s.store.holds
  commit : t.store.commit = s.store.commit
  selects : ∀ k, t.store.active k = s.store.active k
  mode : t.mode = s.mode
  command : t.command = s.command
  port : t.port = s.port
  inReset : t.inReset = s.inReset
  freeCount : t.freeCount = s.freeCount
  pending : t.pending = s.pending
  reads : ∃ ns : List Nat,
    t.store = (State.afterReads .gesture (s.store.active .gesture) ns s).store ∧
      t.queue = (State.afterReads .gesture (s.store.active .gesture) ns s).queue

/-- What reads do to the store and the queue depends on nothing else. -/
theorem State.afterReads_congr (t : Table) (k : Bank) (ns : List Nat) {s u : State} (h1 : u.store = s.store)
    (h2 : u.queue = s.queue) :
    (State.afterReads t k ns u).store = (State.afterReads t k ns s).store ∧
      (State.afterReads t k ns u).queue = (State.afterReads t k ns s).queue := by
  induction ns generalizing s u with
  | nil => exact ⟨h1, h2⟩
  | cons n ns ih =>
    refine ih ?_ ?_
    · simp only [State.afterRead, h1]
    · simp only [State.afterRead, h1, h2]

theorem State.afterReads_append (t : Table) (k : Bank) (ns ms : List Nat) (s : State) :
    State.afterReads t k (ns ++ ms) s = State.afterReads t k ms (State.afterReads t k ns s) := by
  induction ns generalizing s with
  | nil => rfl
  | cons n ns ih => exact ih _

theorem GestureFrame.refl (f : Surface) (s : State) : GestureFrame f s s :=
  ⟨rfl, rfl, rfl, rfl, SlotsKept.refl _, rfl, rfl, rfl, rfl, rfl, rfl, rfl, fun _ => rfl, rfl, rfl, rfl, rfl, rfl, rfl,
    [], rfl, rfl⟩

theorem GestureFrame.trans {f : Surface} {s t u : State} (h : GestureFrame f s t) (h' : GestureFrame f t u) :
    GestureFrame f s u :=
  ⟨h'.padLink.trans h.padLink, h'.panelLink.trans h.panelLink,
   by rw [h'.unit, h.unit], h'.other.trans h.other, h.slots.trans h'.slots, h'.nextId.trans h.nextId,
   h'.lastServed.trans h.lastServed, h'.pen.trans h.pen, h'.palm.trans h.palm, h'.gesture.trans h.gesture,
   h'.holds.trans h.holds, h'.commit.trans h.commit, fun k => (h'.selects k).trans (h.selects k),
   h'.mode.trans h.mode, h'.command.trans h.command, h'.port.trans h.port, h'.inReset.trans h.inReset,
   h'.freeCount.trans h.freeCount, h'.pending.trans h.pending, by
    obtain ⟨ns, a1, a2⟩ := h.reads
    obtain ⟨ms, b1, b2⟩ := h'.reads
    rw [h.selects .gesture] at b1 b2
    have c := State.afterReads_congr .gesture (s.store.active .gesture) ms a1 a2
    exact ⟨ns ++ ms, by rw [State.afterReads_append, b1, c.1], by rw [State.afterReads_append, b2, c.2]⟩⟩

theorem GestureFrame.context (f : Surface) (s : State) (c : Context) : GestureFrame f s (s.setContext f c) := by
  cases f <;>
    exact ⟨rfl, rfl, rfl, rfl, SlotsKept.refl _, rfl, rfl, rfl, rfl, rfl, rfl, rfl, fun _ => rfl, rfl, rfl, rfl, rfl,
      rfl, rfl, [], rfl, rfl⟩

theorem GestureFrame.slotsOf (f : Surface) (s : State) {a : List (Option Track)} (h : SlotsKept s.tracks.slots a) :
    GestureFrame f s (s.setSlots a) := by
  cases f <;>
    exact ⟨rfl, rfl, rfl, rfl, h, rfl, rfl, rfl, rfl, rfl, rfl, rfl, fun _ => rfl, rfl, rfl, rfl, rfl, rfl, rfl,
      [], rfl, rfl⟩

/-- A read of a row leaves the hold count, the pending commit and the bank selects. -/
theorem TableStore.afterRead_kept (st : TableStore) (t : Table) (k : Bank) (n : Nat) :
    (st.afterRead t k n).holds = st.holds ∧ (st.afterRead t k n).commit = st.commit ∧
      (∀ u, (st.afterRead t k n).active u = st.active u) ∧ (st.afterRead t k n).load = st.load ∧
      (st.afterRead t k n).lock = st.lock ∧ (st.afterRead t k n).verify = st.verify ∧
      (∀ u, (st.afterRead t k n).status u = st.status u) := by
  unfold TableStore.afterRead
  split
  · exact ⟨rfl, rfl, fun _ => rfl, rfl, rfl, rfl, fun _ => rfl⟩
  · refine ⟨rfl, rfl, fun u => ?_, rfl, rfl, rfl, fun u => ?_⟩
    · cases t <;> cases u <;> cases k <;> rfl
    · cases t <;> cases u <;> cases k <;> rfl
  · split
    · exact ⟨rfl, rfl, fun _ => rfl, rfl, rfl, rfl, fun _ => rfl⟩
    · split
      · exact ⟨rfl, rfl, fun u => by cases u <;> rfl, rfl, rfl, rfl, fun u => by cases u <;> rfl⟩
      · exact ⟨rfl, rfl, fun u => by cases u <;> rfl, rfl, rfl, rfl, fun u => by cases u <;> rfl⟩

theorem GestureFrame.read (f : Surface) (s : State) (n : Nat) :
    GestureFrame f s (s.afterRead .gesture (s.store.active .gesture) n) := by
  have h := s.store.afterRead_kept .gesture (s.store.active .gesture) n
  cases f <;>
    exact ⟨rfl, rfl, rfl, rfl, SlotsKept.refl _, rfl, rfl, rfl, rfl, rfl, h.1, h.2.1, h.2.2.1, rfl, rfl, rfl, rfl, rfl, rfl,
      [n], rfl, rfl⟩

theorem GestureFrame.readRows (f : Surface) (ns : List Nat) (s : State) :
    GestureFrame f s (State.afterReads .gesture (s.store.active .gesture) ns s) := by
  induction ns generalizing s with
  | nil => exact GestureFrame.refl f s
  | cons n ns ih =>
    have h := (GestureFrame.read f s n).trans (ih _)
    have hk : (s.afterRead .gesture (s.store.active .gesture) n).store.active .gesture = s.store.active .gesture :=
      (s.store.afterRead_kept .gesture (s.store.active .gesture) n).2.2.1 .gesture
    rw [hk] at h
    exact h

theorem GestureFrame.win (f : Surface) (s : State) (n : Nat) (r : GestureRule) : GestureFrame f s (s.win f n r).1 := by
  unfold State.win
  refine (GestureFrame.context f s _).trans (GestureFrame.slotsOf f _ ?_)
  show SlotsKept s.tracks.slots _
  split
  · exact consumeMembers_kept _ _
  · exact SlotsKept.refl _

theorem GestureFrame.cancels (f : Surface) (s : State) (held : List Nat) (ink : Bool) :
    GestureFrame f s (s.gestureCancels f held ink).1 := by
  unfold State.gestureCancels
  dsimp only
  split
  · exact GestureFrame.context f s _
  · split
    · exact GestureFrame.context f s _
    · split
      · split
        · exact (GestureFrame.read f s _).trans (GestureFrame.context f _ _)
        · exact GestureFrame.read f s _
      · exact GestureFrame.refl f s

theorem GestureFrame.joins (f : Surface) (s : State) (time : Half) : GestureFrame f s (s.gestureJoins f time) := by
  unfold State.gestureJoins
  exact (GestureFrame.context f s _).trans (GestureFrame.slotsOf f _ (joinTracks_kept _ _ _ _))

theorem GestureFrame.close (f : Surface) (s : State) (time : Half) : GestureFrame f s (s.gestureClose f time) := by
  unfold State.gestureClose
  dsimp only
  split
  · exact (GestureFrame.context f s _).trans (GestureFrame.slotsOf f _ (joinTracks_kept _ _ _ _))
  · exact GestureFrame.refl f s

theorem GestureFrame.gather (f : Surface) (s : State) (g : Nat) : GestureFrame f s (s.gestureGather f g).1 := by
  unfold State.gestureGather
  dsimp only
  split
  · split
    · exact (GestureFrame.readRows f _ s).trans (GestureFrame.context f _ _)
    · split
      · unfold State.earlyEnd
        dsimp only
        split
        · exact (GestureFrame.readRows f _ s).trans (GestureFrame.win f _ _ _)
        · exact GestureFrame.readRows f _ s
      · exact GestureFrame.refl f s
  · exact GestureFrame.refl f s

theorem GestureFrame.evaluate (f : Surface) (s : State) : GestureFrame f s (s.gestureEvaluate f).1 := by
  unfold State.gestureEvaluate
  split
  · have h : GestureFrame f s (s.recompute f) := by
      unfold State.recompute
      dsimp only
      split
      · exact (GestureFrame.readRows f _ s).trans (GestureFrame.context f _ _)
      · exact GestureFrame.refl f s
    refine h.trans ?_
    unfold State.evaluateRules
    dsimp only
    split
    · exact (GestureFrame.readRows f _ _).trans (GestureFrame.win f _ _ _)
    · exact (GestureFrame.readRows f _ _).trans (GestureFrame.context f _ _)
  · exact GestureFrame.refl f s

theorem GestureFrame.body (f : Surface) (s : State) (g : Nat) : GestureFrame f s (s.gestureBody f g).1 := by
  unfold State.gestureBody
  split
  · unfold State.gestureProgress
    dsimp only
    split
    · split
      · exact GestureFrame.context f s _
      · split
        · exact GestureFrame.refl f s
        · exact GestureFrame.context f s _
    · exact GestureFrame.refl f s
  · exact (GestureFrame.gather f s g).trans (GestureFrame.evaluate f _)

/-- The whole gesture step (R98). -/
theorem gestureStep_frame (s : State) (f : Surface) (time : Half) (g : Nat) (held : List Nat) (ink : Bool) :
    GestureFrame f s (s.gestureStep f time g held ink).1 := by
  unfold State.gestureStep
  exact ((((GestureFrame.context f s _).trans (GestureFrame.cancels f _ held ink)).trans
    (GestureFrame.joins f _ time)).trans (GestureFrame.body f _ g)).trans (GestureFrame.close f _ time)

/-! ## Where the tracks of a later table come from -/

/-- Every track of the later slots stood in the same slot before, as `Track.Keeps` says; no slot is new. -/
def SlotsFrom (a b : List (Option Track)) : Prop :=
  b.length = a.length ∧ ∀ (i : Nat) (u : Track), b[i]? = some (some u) → ∃ t, a[i]? = some (some t) ∧ t.Keeps u

theorem SlotsFrom.refl (a : List (Option Track)) : SlotsFrom a a := ⟨rfl, fun _ u h => ⟨u, h, Track.Keeps.refl u⟩⟩

theorem SlotsFrom.trans {a b c : List (Option Track)} (h : SlotsFrom a b) (h' : SlotsFrom b c) : SlotsFrom a c :=
  ⟨h'.1.trans h.1, fun i u hu => by
    obtain ⟨t, ht, k⟩ := h'.2 i u hu
    obtain ⟨v, hv, k'⟩ := h.2 i t ht
    exact ⟨v, hv, k'.trans k⟩⟩

theorem SlotsKept.from {a b : List (Option Track)} (h : SlotsKept a b) : SlotsFrom a b :=
  ⟨h.length, fun _ _ hu => h.back hu⟩

/-- A slot-by-slot change that frees tracks or keeps them. -/
theorem SlotsFrom.of_map {g : Option Track → Option Track} (hn : g none = none)
    (hg : ∀ t u : Track, g (some t) = some u → t.Keeps u) (a : List (Option Track)) : SlotsFrom a (a.map g) := by
  refine ⟨by simp, fun i u hu => ?_⟩
  rw [List.getElem?_map] at hu
  cases ha : a[i]? with
  | none => simp [ha] at hu
  | some o =>
    rw [ha] at hu
    simp only [Option.map_some, Option.some.injEq] at hu
    cases o with
    | none => rw [hn] at hu; cases hu
    | some t => exact ⟨t, rfl, hg t u hu⟩

theorem releaseSlots_from (f : Surface) (a : List (Option Track)) : SlotsFrom a (releaseSlots f a) := by
  refine SlotsFrom.of_map (g := releaseSlot f) rfl (fun t u h => ?_) a
  unfold releaseSlot at h
  dsimp only at h
  split at h
  · split at h
    · cases h
    · cases h; exact ⟨rfl, rfl, fun _ h => h⟩
  · cases h; exact Track.Keeps.refl t

theorem freeSurface_from (f : Surface) (a : List (Option Track)) : SlotsFrom a (freeSurface f a) := by
  refine SlotsFrom.of_map (g := fun o => match o with | none => none | some t => if t.surface = f then none else some t)
    rfl (fun t u h => ?_) a
  dsimp only at h
  split at h
  · cases h
  · cases h; exact Track.Keeps.refl t

/-- The table's relations hold of any table whose tracks come from one of which they hold. -/
theorem TracksInv.of_from {a b : TrackTable} (h : TracksInv a) (hs : SlotsFrom a.slots b.slots)
    (hn : b.nextId = a.nextId) : TracksInv b := by
  obtain ⟨h1, h2, h3, h4⟩ := h
  refine ⟨hs.1.trans h1, by rw [hn]; exact h2, fun x hx => ?_, fun i j x y hi hj hxy => ?_⟩
  · obtain ⟨i, hi⟩ := List.getElem?_of_mem hx
    obtain ⟨t, ht, k⟩ := hs.2 i x hi
    rw [k.1]
    exact h3 t (List.mem_of_getElem? ht)
  · obtain ⟨t, ht, k⟩ := hs.2 i x hi
    obtain ⟨u, hu, k'⟩ := hs.2 j y hj
    exact h4 i j t u ht hu (by rw [← k.1, ← k'.1]; exact hxy)

end Sys2Proof.Machine
end

