-- ==== Sys2Proof/Laws/Store.lean ====
section
/-! SUPPORT. Stored rows under reads and writes: which row a read or a write changes, what several reads in order
find, and the Row Fault List's two relations. -/

namespace Sys2Proof.Machine

theorem TableStore.table_writeRow_other (st : TableStore) {t u : Table} (k : Bank) (n : Nat) (v : StoredRow)
    (h : t ≠ u) : (st.writeRow t k n v).table u = st.table u :=
  TableStore.setTable_other st t u _ h

theorem TableStore.bank_writeRow_same (st : TableStore) (t : Table) (k : Bank) (n : Nat) (v : StoredRow) :
    ((st.writeRow t k n v).table t).bank k = ((st.table t).bank k).set n v := by
  show ((st.setTable t _).table t).bank k = _
  rw [TableStore.setTable_same, TableState.setBank_same]

theorem TableStore.bank_writeRow_other (st : TableStore) (t : Table) {k m : Bank} (n : Nat) (v : StoredRow)
    (h : k ≠ m) : ((st.writeRow t k n v).table t).bank m = (st.table t).bank m := by
  show ((st.setTable t _).table t).bank m = _
  rw [TableStore.setTable_same, TableState.setBank_other _ _ _ _ h]

/-- A write leaves every other row as it is. -/
theorem TableStore.row_writeRow_other (st : TableStore) (t : Table) (k : Bank) (n : Nat) (v : StoredRow) (u : Table)
    (m : Bank) (i : Nat) (h : ¬ (t = u ∧ k = m ∧ n = i)) : (st.writeRow t k n v).row u m i = st.row u m i := by
  unfold TableStore.row
  by_cases ht : t = u
  · subst ht
    by_cases hk : k = m
    · subst hk
      rw [bank_writeRow_same, List.getD_eq_getElem?_getD, List.getD_eq_getElem?_getD,
        List.getElem?_set_ne (fun hn => h ⟨rfl, rfl, hn⟩)]
    · rw [bank_writeRow_other st t n v hk]
  · rw [table_writeRow_other st k n v ht]

/-- A write to a row that exists sets it. -/
theorem TableStore.row_writeRow_same (st : TableStore) (t : Table) (k : Bank) (n : Nat) (v : StoredRow)
    (h : n < ((st.table t).bank k).length) : (st.writeRow t k n v).row t k n = v := by
  unfold TableStore.row
  rw [bank_writeRow_same, List.getD_eq_getElem?_getD, List.getElem?_set_self h]
  rfl

/-- A read leaves every other row as it is (R131). -/
theorem TableStore.row_afterRead_other (st : TableStore) (t : Table) (k : Bank) (n i : Nat) (h : n ≠ i) :
    (st.afterRead t k n).row t k i = st.row t k i := by
  unfold TableStore.afterRead
  split
  · rfl
  · exact TableStore.row_writeRow_other st t k n _ t k i (fun hc => h hc.2.2)
  · split
    · rfl
    · split <;> cases t <;> rfl

/-- A read changes the bytes that a later reader uses in no row: a corrected row keeps its bytes and its mark (R131). -/
theorem TableStore.used_afterRead (st : TableStore) (t : Table) (k : Bank) (n i : Nat) :
    ((((st.afterRead t k n).row t k i).view t).used t) = ((st.row t k i).view t).used t := by
  by_cases h : n = i
  · subst h
    unfold TableStore.afterRead
    split
    · rfl
    · rename_i hs
      have hn : n < ((st.table t).bank k).length := by
        apply Decidable.byContradiction
        intro hge
        unfold TableStore.row at hs
        rw [List.getD_eq_default _ _ (Nat.le_of_not_lt hge)] at hs
        cases hs
      show (((st.writeRow t k n _).row t k n).view t).used t = _
      rw [TableStore.row_writeRow_same st t k n _ hn]
      unfold StoredRow.view RowView.used
      rw [hs]
      dsimp only
      split <;> simp_all
    · split
      · rfl
      · split <;> cases t <;> rfl
  · rw [TableStore.row_afterRead_other _ _ _ _ _ h]

/-- Reads of any rows in order find the bytes that each row has for a reader before them. -/
theorem State.viewRows_used (t : Table) (k : Bank) (ns : List Nat) (s : State) :
    (State.viewRows t k ns s).map (RowView.used t) = ns.map (fun n => ((s.store.row t k n).view t).used t) := by
  induction ns generalizing s with
  | nil => rfl
  | cons n ns ih =>
    unfold State.viewRows
    rw [List.map_cons, ih, List.map_cons]
    exact congrArg (_ :: ·) (List.map_congr_left (fun i _ => TableStore.used_afterRead s.store t k n i))

/-- Reads of any rows in order leave the bytes that a later reader uses. -/
theorem State.used_afterReads (t : Table) (k : Bank) (ns : List Nat) (s : State) (i : Nat) :
    ((((State.afterReads t k ns s).store.row t k i).view t).used t) = ((s.store.row t k i).view t).used t := by
  induction ns generalizing s with
  | nil => rfl
  | cons n ns ih => exact (ih _).trans (TableStore.used_afterRead s.store t k n i)

/-- Reads of distinct rows find each row as it stood before them. -/
theorem State.viewRows_of_nodup (t : Table) (k : Bank) (ns : List Nat) (s : State) (h : ns.Nodup) :
    State.viewRows t k ns s = ns.map (fun n => (s.store.row t k n).view t) := by
  induction ns generalizing s with
  | nil => rfl
  | cons n ns ih =>
    have hn := List.nodup_cons.1 h
    unfold State.viewRows
    rw [ih _ hn.2, List.map_cons]
    refine congrArg (_ :: ·) (List.map_congr_left (fun i hi => ?_))
    rw [State.afterRead]
    dsimp only
    have hne : n ≠ i := fun hc => hn.1 (by rw [hc]; exact hi)
    rw [TableStore.row_afterRead_other _ _ _ _ _ hne]

/-! ## The Row Fault List (R133) -/

theorem FaultsInv.writeRow {st : TableStore} (h : FaultsInv st) (t : Table) (k : Bank) (n : Nat) (v : StoredRow) :
    FaultsInv (st.writeRow t k n v) :=
  ⟨Nat.le_trans (List.length_filter_le _ _) h.1, h.2.filter _⟩

theorem FaultsInv.afterRead {st : TableStore} (h : FaultsInv st) (t : Table) (k : Bank) (n : Nat) :
    FaultsInv (st.afterRead t k n) := by
  unfold TableStore.afterRead
  split
  · exact h
  · exact h.writeRow t k n { st.row t k n with integrity := .intact }
  · split
    · exact h
    · rename_i hl
      split
      · refine ⟨by simp; omega, ?_⟩
        refine List.nodup_append.2 ⟨h.2, by simp, ?_⟩
        intro a ha b hb hab
        subst hab
        simp only [List.mem_singleton] at hb
        subst hb
        exact hl (by unfold TableStore.listed; exact List.any_eq_true.2 ⟨_, ha, by simp⟩)
      · exact h

theorem FaultsInv.afterReads {s : State} (t : Table) (k : Bank) (ns : List Nat) (h : FaultsInv s.store) :
    FaultsInv (State.afterReads t k ns s).store := by
  induction ns generalizing s with
  | nil => exact h
  | cons n ns ih => exact ih (h.afterRead t k n)

end Sys2Proof.Machine
end

