-- ==== Sys2Proof/Laws/Gestures.lean ====
section
/-! SUPPORT. The gesture step's shared operations: what joining does to the context and the track set, what consume
does to a slot, and the rules that reads of GESTURE rows give. -/

namespace Sys2Proof.Machine

/-- How many joiners a context takes (R100). -/
def Context.room (c : Context) : Nat :=
  match c.state with
  | .closed => 5
  | .gathering => 5 - c.members.length
  | _ => 0

theorem Context.takes_iff (c : Context) : c.takes = true ↔ 0 < c.room := by
  unfold Context.takes Context.room
  cases c.state <;> simp

theorem Context.room_withMember (c : Context) (time : Half) (m : Member) (h : 0 < c.room) :
    (c.withMember time m).room = c.room - 1 ∧ (c.withMember time m).state = .gathering := by
  unfold Context.withMember Context.room at *
  cases hs : c.state <;> (simp_all [Context.closed]; try omega)

/-- A context that takes none, and the track set, are left as they are. -/
theorem joinTracks_full (time : Half) (ts : List (Nat × Track)) (c : Context) (slots : List (Option Track))
    (h : c.room = 0) : joinTracks time ts c slots = (c, slots) := by
  induction ts with
  | nil => rfl
  | cons p ts ih =>
    unfold joinTracks
    rw [if_neg (by rw [Context.takes_iff]; omega)]
    exact ih

/-- The first joiners, as many as there is room for, become members in order. -/
theorem joinTracks_context (time : Half) (ts : List (Nat × Track)) (c : Context) (slots : List (Option Track)) :
    (joinTracks time ts c slots).1 =
      (ts.take c.room).foldl (fun c p => c.withMember time (p.2.joins p.1)) c := by
  induction ts generalizing c slots with
  | nil => rw [List.take_nil]; rfl
  | cons p ts ih =>
    by_cases h : 0 < c.room
    · unfold joinTracks
      rw [if_pos ((Context.takes_iff c).2 h), ih, (Context.room_withMember c time _ h).1]
      obtain ⟨n, hn⟩ : ∃ n, c.room = n + 1 := ⟨c.room - 1, by omega⟩
      rw [hn]
      rfl
    · rw [joinTracks_full _ _ _ _ (by omega), show c.room = 0 by omega]
      rfl

/-- A GATHERING context with joiners added. -/
theorem foldl_withMember_gathering (time : Half) (ts : List (Nat × Track)) (c : Context) (h : c.state = .gathering) :
    ts.foldl (fun c p => c.withMember time (p.2.joins p.1)) c =
      { c with members := c.members ++ ts.map (fun p => p.2.joins p.1) } := by
  induction ts generalizing c with
  | nil => simp
  | cons p ts ih =>
    have hw : c.withMember time (p.2.joins p.1) = { c with members := c.members ++ [p.2.joins p.1] } := by
      unfold Context.withMember
      rw [if_neg (by rw [h]; decide)]
    rw [List.foldl_cons, hw]
    refine (ih { c with members := c.members ++ [p.2.joins p.1] } h).trans ?_
    simp

/-- A CLOSED context that joiners open. -/
theorem foldl_withMember_closed (time : Half) (ts : List (Nat × Track)) (c : Context) (h : c.state = .closed)
    (hts : ts ≠ []) :
    ts.foldl (fun c p => c.withMember time (p.2.joins p.1)) c =
      { Context.closed with
        state := .gathering, members := ts.map (fun p => p.2.joins p.1), lastSeen := time } := by
  cases ts with
  | nil => exact absurd rfl hts
  | cons p ts =>
    have hw : c.withMember time (p.2.joins p.1) =
        { Context.closed with state := .gathering, members := [p.2.joins p.1], lastSeen := time } := by
      unfold Context.withMember
      rw [if_pos h]
    rw [List.foldl_cons, hw]
    refine (foldl_withMember_gathering _ _ _ rfl).trans ?_
    simp

/-- The joiners taken get the member mark; every other slot stays. -/
theorem joinTracks_slots (time : Half) (ts : List (Nat × Track)) (c : Context) (slots : List (Option Track)) (i : Nat) :
    (joinTracks time ts c slots).2[i]? = slots[i]?.map (fun o =>
      if i ∈ (ts.take c.room).map Prod.fst then o.map (fun t => { t with member := true }) else o) := by
  induction ts generalizing c slots with
  | nil => simp [joinTracks]
  | cons p ts ih =>
    by_cases h : 0 < c.room
    · unfold joinTracks
      rw [if_pos ((Context.takes_iff c).2 h), ih, (Context.room_withMember c time _ h).1]
      obtain ⟨n, hn⟩ : ∃ n, c.room = n + 1 := ⟨c.room - 1, by omega⟩
      rw [hn, Nat.add_sub_cancel, List.take_succ_cons, List.map_cons, markMember, List.getElem?_modify]
      cases slots[i]? with
      | none => rfl
      | some o =>
        by_cases hp : p.1 = i
        · subst hp
          cases o <;> simp
        · simp [hp, Ne.symm hp]
    · rw [joinTracks_full _ _ _ _ (by omega), show c.room = 0 by omega]
      simp

theorem Track.consume_consume (t : Track) : t.consume.consume = t.consume := by
  unfold Track.consume
  by_cases h : t.state = .live
  · rw [if_pos h, if_neg (by simp)]
  · rw [if_neg h, if_neg h]

/-- Consume reaches the slots of the members that did not end in an earlier frame, and no other (R105). -/
theorem consumeMembers_slots (ms : List Member) (slots : List (Option Track)) (i : Nat) :
    (consumeMembers ms slots)[i]? = slots[i]?.map (fun o =>
      if ∃ m ∈ ms, m.slot = i ∧ (m.ended = false ∨ m.endedNow = true) then o.map Track.consume else o) := by
  induction ms generalizing slots with
  | nil => simp [consumeMembers]
  | cons m ms ih =>
    unfold consumeMembers
    rw [ih]
    by_cases h : m.ended = true ∧ m.endedNow = false
    · rw [if_pos h]
      congr 1
      funext o
      have : (∃ x ∈ m :: ms, x.slot = i ∧ (x.ended = false ∨ x.endedNow = true)) ↔
          ∃ x ∈ ms, x.slot = i ∧ (x.ended = false ∨ x.endedNow = true) := by
        simp [h.1, h.2]
      simp only [this]
    · rw [if_neg h, List.getElem?_modify]
      have hm : m.ended = false ∨ m.endedNow = true := by
        cases he : m.ended <;> cases hn : m.endedNow <;> simp_all
      by_cases hs : m.slot = i
      · cases slots[i]? with
        | none => rfl
        | some o =>
          cases o with
          | none => simp [hs]
          | some t =>
            have : ∃ x ∈ m :: ms, x.slot = i ∧ (x.ended = false ∨ x.endedNow = true) :=
              ⟨m, List.mem_cons_self, hs, hm⟩
            simp only [hs, if_true, Option.map_some, if_pos this, Option.map_eq_map, Track.consume_consume, ite_self]
      · have : (∃ x ∈ m :: ms, x.slot = i ∧ (x.ended = false ∨ x.endedNow = true)) ↔
            ∃ x ∈ ms, x.slot = i ∧ (x.ended = false ∨ x.endedNow = true) := by
          constructor
          · rintro ⟨x, hx, hxs, hxe⟩
            rcases List.mem_cons.1 hx with rfl | hx
            · exact absurd hxs hs
            · exact ⟨x, hx, hxs, hxe⟩
          · rintro ⟨x, hx, hxs⟩
            exact ⟨x, List.mem_cons_of_mem _ hx, hxs⟩
        simp only [this, if_neg hs]
        cases slots[i]? <;> rfl

/-- Reads of GESTURE rows give each row as it is used before them. -/
theorem State.rules_eq (s : State) (rows : List Nat) : s.rules rows = rows.map (fun n => (n, s.rule n)) := by
  have h : (s.viewRows .gesture (s.store.active .gesture) rows).map (fun v => ruleOf (v.used .gesture)) =
      rows.map s.rule := by
    have := congrArg (List.map ruleOf) (State.viewRows_used .gesture (s.store.active .gesture) rows s)
    rw [List.map_map, List.map_map] at this
    exact this
  unfold State.rules
  rw [h]
  clear h
  induction rows with
  | nil => rfl
  | cons n ns ih => rw [List.map_cons, List.zip_cons_cons, ih, List.map_cons]

/-- The rows selected of a list that is read in order (R101). -/
theorem Context.selected_rules (f : Surface) (c : Context) (s : State) (rows : List Nat) :
    c.selected f (s.rules rows) = (rows.filter (fun n => c.selects f (s.rule n))).map (fun n => (n, s.rule n)) := by
  rw [State.rules_eq, Context.selected, List.filter_map]
  rfl

end Sys2Proof.Machine
end

