-- ==== Sys2Proof/Laws/Measure.lean ====
section
/-! SUPPORT. A measure of the at-once steps still to come: every such step lowers it, and it is at most 57 (log
entry 28); and that taking what is due does not bring the part into reset. -/

namespace Sys2Proof.Machine

/-! ## The measure -/

/-- What a surface may still ask for: the take of its waiting frame, a pending forced end. -/
def SurfaceUnit.toCome (u : SurfaceUnit) : Nat := u.slot.frame.isSome.toNat + (u.forcedPending && u.op.isNone).toNat

/-- What the pen may still ask for: the take of its waiting frame, a pending drop. -/
def PenUnit.toCome (p : PenUnit) : Nat := p.slot.frame.isSome.toNat + (p.dropPending && p.op.isNone).toNat

/-- The part of the measure that surfaces and pen make up. -/
def State.unitsToCome (s : State) : Nat := s.pad.toCome + s.panel.toCome + s.pen.toCome

/-- The ends of phases that a transition in flight may still bring. -/
def ModeEngine.phasesToCome (m : ModeEngine) : Nat :=
  match m.transition with
  | none => 0
  | some t => match t.phase with | .wake => 2 | .scan => 1

/-- A waiting SET_MODE: its start, and what the transition it starts may bring. -/
def ModeEngine.startToCome (m : ModeEngine) : Nat :=
  match m.setMode with
  | none => 0
  | some c => if c.driving then 0 else 6

/-- The part of the measure that the Mode Engine makes up. -/
def ModeEngine.toCome (m : ModeEngine) : Nat := m.phasesToCome + m.startToCome + 2 * m.returnDue.toNat

/-- The measure. -/
def State.toCome (s : State) : Nat :=
  40 * s.command.softReset.toNat + s.store.commit.isSome.toNat + s.unitsToCome + s.mode.toCome

theorem State.toCome_le (s : State) : s.toCome ≤ 57 := by
  have hb : ∀ b : Bool, b.toNat ≤ 1 := Bool.toNat_le
  have hu : ∀ u : SurfaceUnit, u.toCome ≤ 2 := fun u => by
    unfold SurfaceUnit.toCome
    have := hb u.slot.frame.isSome
    have := hb (u.forcedPending && u.op.isNone)
    omega
  have hp : s.pen.toCome ≤ 2 := by
    unfold PenUnit.toCome
    have := hb s.pen.slot.frame.isSome
    have := hb (s.pen.dropPending && s.pen.op.isNone)
    omega
  have ht : s.mode.phasesToCome ≤ 2 := by
    unfold ModeEngine.phasesToCome
    split
    · omega
    · split <;> omega
  have hs : s.mode.startToCome ≤ 6 := by
    unfold ModeEngine.startToCome
    split
    · omega
    · split <;> omega
  have := hu s.pad
  have := hu s.panel
  have := hb s.command.softReset
  have := hb s.store.commit.isSome
  have := hb s.mode.returnDue
  unfold State.toCome State.unitsToCome ModeEngine.toCome
  omega

theorem State.finish_toCome (s : State) : s.finish.toCome = s.toCome := by
  simp [State.toCome, State.unitsToCome, ModeEngine.toCome, ModeEngine.phasesToCome, ModeEngine.startToCome, State.finish]

/-! ## Surfaces and pen -/

theorem State.unitsToCome_congr {s t : State} (h1 : t.pad = s.pad) (h2 : t.panel = s.panel) (h3 : t.pen = s.pen) :
    t.unitsToCome = s.unitsToCome := by
  unfold State.unitsToCome
  rw [h1, h2, h3]

theorem takeForcedEnd_units (s : State) (f : Surface) :
    (s.takeForcedEnd f).unitsToCome + ((s.unit f).forcedPending && (s.unit f).op.isNone).toNat = s.unitsToCome := by
  cases f <;>
    simp [State.unitsToCome, SurfaceUnit.toCome, State.takeForcedEnd, State.offer, State.forcedEndEffect, State.setUnit,
      State.setSlots, State.unit] <;>
    omega

theorem requestForcedEnd_units (s : State) (f : Surface) : (s.requestForcedEnd f).unitsToCome ≤ s.unitsToCome := by
  unfold State.requestForcedEnd
  split
  · have := takeForcedEnd_units s f
    omega
  · rename_i h
    have ho : (s.unit f).op.isNone = false := by
      cases hx : (s.unit f).op with
      | none => exact absurd (by rw [hx]; rfl) h
      | some x => rfl
    cases f <;>
      (simp only [State.unit] at ho
       simp [State.unitsToCome, SurfaceUnit.toCome, State.setUnit, State.unit, ho])

theorem takeDrop_units (s : State) :
    s.takeDrop.unitsToCome + (s.pen.dropPending && s.pen.op.isNone).toNat = s.unitsToCome := by
  simp [State.unitsToCome, PenUnit.toCome, State.takeDrop, State.offer, PenUnit.absent]
  omega

theorem requestDrop_units (s : State) : s.requestDrop.unitsToCome ≤ s.unitsToCome := by
  unfold State.requestDrop
  split
  · have := takeDrop_units s
    omega
  · rename_i h
    have ho : s.pen.op.isNone = false := by
      cases hx : s.pen.op with
      | none => exact absurd (by rw [hx]; rfl) h
      | some x => rfl
    simp [State.unitsToCome, PenUnit.toCome, ho]

theorem emptySlots_units (s : State) (l : Surface) : (s.emptySlots l).unitsToCome ≤ s.unitsToCome := by
  cases l <;>
    simp [State.unitsToCome, SurfaceUnit.toCome, PenUnit.toCome, State.emptySlots, State.emptySense, State.emptyPen,
      State.setUnit, State.unit, Slot.empty]
  all_goals omega

theorem quiet_units (s : State) : s.quiet.unitsToCome ≤ s.unitsToCome :=
  Nat.le_trans (requestDrop_units _) (Nat.le_trans (requestForcedEnd_units _ .panel)
    (Nat.le_trans (requestForcedEnd_units _ .pad) (Nat.le_trans (emptySlots_units _ .panel) (emptySlots_units s .pad))))

theorem disableWhen_units (s : State) (f : Surface) (g : Bool) : (s.disableWhen f g).unitsToCome ≤ s.unitsToCome := by
  unfold State.disableWhen
  split
  · cases f with
    | pad => exact Nat.le_trans (requestForcedEnd_units _ .pad) (emptySlots_units s .pad)
    | panel =>
      exact Nat.le_trans (requestDrop_units _)
        (Nat.le_trans (requestForcedEnd_units _ .panel) (emptySlots_units s .panel))
  · exact Nat.le_refl _

theorem evaluateScans_units (s : State) : s.evaluateScans.unitsToCome = s.unitsToCome :=
  State.unitsToCome_congr (by simp) (by simp) (by simp)

theorem evaluateEnables_units (s : State) (e : Enables) : (s.evaluateEnables e).unitsToCome ≤ s.unitsToCome := by
  unfold State.evaluateEnables
  dsimp only
  split
  · exact Nat.le_refl _
  · rw [evaluateScans_units]
    exact Nat.le_trans (disableWhen_units _ .panel _) (disableWhen_units (s.withEnables e) .pad _)

theorem evaluateEnables_softReset (s : State) (e : Enables) :
    (s.evaluateEnables e).command.softReset = s.command.softReset := by
  unfold State.evaluateEnables
  dsimp only
  split
  · rfl
  · simp [State.withEnables]

theorem evaluateEnables_toCome (s : State) (e : Enables) : (s.evaluateEnables e).toCome ≤ s.toCome := by
  have := evaluateEnables_units s e
  unfold State.toCome
  rw [evaluateEnables_softReset, State.evaluateEnables_store, State.evaluateEnables_mode]
  omega

/-! ## Reads, and what a swap tells -/

theorem afterRead_toCome (s : State) (t : Table) (k : Bank) (n : Nat) : (s.afterRead t k n).toCome = s.toCome := by
  have h : (s.afterRead t k n).store.commit = s.store.commit := (s.store.afterRead_kept t k n).2.1
  unfold State.toCome
  rw [h]
  rfl

theorem consultPosture_toCome (s : State) : s.consultPosture.toCome ≤ s.toCome := by
  have h : s.readPosture.toCome = s.toCome := afterRead_toCome s _ _ _
  rw [← h]
  exact evaluateEnables_toCome _ _

theorem recheckGesture_toCome (s : State) (f : Surface) : (s.recheckGesture f).toCome = s.toCome := by
  unfold State.recheckGesture
  dsimp only
  split
  · rename_i n _
    have h : (s.readActive .gesture n).toCome = s.toCome := afterRead_toCome s _ _ _
    rw [← h]
    generalize s.readActive .gesture n = u
    cases f <;> rfl
  · cases f <;> rfl

theorem tellAll_toCome (ts : TableSet) (s : State) : (State.tellAll ts s).toCome ≤ s.toCome := by
  induction ts generalizing s with
  | nil => exact Nat.le_refl _
  | cons t ts ih =>
    refine Nat.le_trans (ih _) ?_
    cases t with
    | posture => exact consultPosture_toCome s
    | zone => exact Nat.le_refl _
    | cls => exact Nat.le_refl _
    | gesture =>
      show ((s.recheckGesture .pad).recheckGesture .panel).toCome ≤ _
      rw [recheckGesture_toCome, recheckGesture_toCome]
    | pen => exact Nat.le_refl _

/-! ## Each at-once step lowers the measure -/

/-- What changes of the Mode Engine alone do to the measure. -/
theorem State.toCome_of_mode {s t : State} (h1 : t.command = s.command) (h2 : t.store = s.store)
    (h3 : t.unitsToCome ≤ s.unitsToCome) (n : Nat) (h4 : t.mode.toCome ≤ s.mode.toCome + n) : t.toCome ≤ s.toCome + n := by
  unfold State.toCome
  rw [h1, h2]
  omega

theorem softResetEffect_toCome (s : State) : s.softResetEffect.toCome = 0 := by
  unfold State.softResetEffect State.enablesFromRow
  have h : ∀ (u : State) (e : Enables),
      ({ u.readPosture with command := { u.command with enables := e } } : State).toCome = u.toCome := by
    intro u e
    have hr : u.readPosture.toCome = u.toCome := afterRead_toCome u _ _ _
    rw [← hr]
    rfl
  exact (h _ _).trans rfl

theorem takeSwap_toCome (s : State) (h : s.store.commit.isSome = true) : s.takeSwap.toCome < s.toCome := by
  unfold State.takeSwap
  cases hc : s.store.commit with
  | none => rw [hc] at h; cases h
  | some ts =>
    refine Nat.lt_of_le_of_lt (tellAll_toCome _ _) ?_
    unfold State.toCome
    rw [hc]
    simp [State.unitsToCome, State.respond]

theorem endWakePhase_toCome (s : State) (h : s.wakePhaseOver = true) : s.endWakePhase.toCome < s.toCome := by
  unfold State.wakePhaseOver at h
  unfold State.endWakePhase
  cases hc : s.mode.transition with
  | none => simp [hc] at h
  | some t =>
    simp only [hc, Bool.and_eq_true, beq_iff_eq] at h
    dsimp only
    have hm : (s.wokenEngine t.target).toCome + 1 = s.mode.toCome := by
      simp [ModeEngine.toCome, ModeEngine.phasesToCome, ModeEngine.startToCome, State.wokenEngine, hc, h.1.1.1]
      omega
    have hw : (State.evaluateScans { s.raise s.diagEvent with mode := s.wokenEngine t.target }).toCome < s.toCome := by
      unfold State.toCome
      rw [evaluateScans_units]
      simp only [State.evaluateScans_command, State.evaluateScans_store, State.evaluateScans_mode]
      have hu : ({ s.raise s.diagEvent with mode := s.wokenEngine t.target } : State).unitsToCome = s.unitsToCome := rfl
      rw [hu]
      simp
      omega
    split
    · refine Nat.lt_of_le_of_lt ?_ hw
      exact State.toCome_of_mode (by simp) (by simp) (quiet_units _) 0 (by simp)
    · exact hw

theorem answerSetMode_toCome (s : State) : s.answerSetMode.toCome ≤ s.toCome := by
  simp [State.toCome, State.unitsToCome, ModeEngine.toCome, ModeEngine.phasesToCome, ModeEngine.startToCome,
    State.answerSetMode, State.respond]

theorem completeTransition_toCome (s : State) (h : s.scanPhaseOver = true) : s.completeTransition.toCome < s.toCome := by
  unfold State.scanPhaseOver at h
  unfold State.completeTransition
  cases hc : s.mode.transition with
  | none => simp [hc] at h
  | some t =>
    simp only [hc, Bool.and_eq_true, beq_iff_eq] at h
    dsimp only
    have hu : ∀ e, (State.raise { s with mode := { s.mode with transition := none } } e).toCome + 1 = s.toCome := by
      intro e
      simp [State.toCome, State.unitsToCome, ModeEngine.toCome, ModeEngine.phasesToCome, ModeEngine.startToCome, hc, h.1.1]
      omega
    have hlt := fun e => Nat.lt_of_succ_le (Nat.le_of_eq (hu e))
    split
    · exact Nat.lt_of_le_of_lt (answerSetMode_toCome _) (hlt _)
    · split
      · exact hlt _
      · split
        · rename_i hr
          unfold State.takeReturn State.beginScan State.toCome
          rw [evaluateScans_units]
          simp only [State.evaluateScans_command, State.evaluateScans_store, State.evaluateScans_mode]
          simp [State.unitsToCome, ModeEngine.toCome, ModeEngine.phasesToCome, ModeEngine.startToCome, hc, h.1.1,
            ModeEngine.starting, hr]
        · exact hlt _

/-- A SET_MODE that starts in a settled mode brings at most the two ends of a wake. -/
theorem drive_toCome (s : State) (m : Mode) (h : s.mode.transition = none) : (s.drive m).toCome ≤ s.toCome + 2 := by
  have hs : ∀ (m : Mode) (c : Cause), (s.mode.starting m c).toCome ≤ s.mode.toCome + 2 := by
    intro m c
    simp [ModeEngine.toCome, ModeEngine.phasesToCome, ModeEngine.startToCome, ModeEngine.starting, h]
    omega
  have hb : ∀ (m : Mode) (c : Cause), (s.beginScan m c).toCome ≤ s.toCome + 2 := fun m c =>
    State.toCome_of_mode (by simp) (by simp) (Nat.le_of_eq (State.unitsToCome_congr (by simp) (by simp) (by simp))) 2
      (by simpa [State.beginScan] using hs m c)
  unfold State.drive
  split
  · exact Nat.le_trans (answerSetMode_toCome s) (Nat.le_add_right _ _)
  · split
    · unfold State.beginWake State.toCome
      simp [State.unitsToCome, ModeEngine.toCome, ModeEngine.phasesToCome, ModeEngine.startToCome, h]
      omega
    · cases m with
      | active => exact hb _ _
      | idle => exact hb _ _
      | doze =>
        refine State.toCome_of_mode (by simp) (by simp) ?_ 2 ?_
        · unfold State.beginDoze
          rw [evaluateScans_units]
          exact quiet_units _
        · simpa [State.beginDoze] using hs .doze .command
      | sleep =>
        refine State.toCome_of_mode (by simp) (by simp) ?_ 2 ?_
        · unfold State.beginSleep
          rw [evaluateScans_units]
          refine Nat.le_trans (Nat.le_of_eq (State.unitsToCome_congr (by simp) (by simp) (by simp)))
            (quiet_units { s with mode := s.mode.starting .sleep .command })
        · simpa [State.beginSleep] using hs .sleep .command
      | waking => exact Nat.le_add_right _ _

theorem startSetMode_toCome (s : State) (h : s.setModeReady = true) : s.startSetMode.toCome < s.toCome := by
  unfold State.setModeReady at h
  unfold State.startSetMode
  cases hc : s.mode.setMode with
  | none => simp [hc] at h
  | some c =>
    simp only [hc, Bool.and_eq_true, Bool.not_eq_true', State.settled, Option.isNone_iff_eq_none] at h
    refine Nat.lt_of_le_of_lt (drive_toCome { s with mode := s.mode.started c } c.target h.1.2) ?_
    simp [State.toCome, State.unitsToCome, ModeEngine.toCome, ModeEngine.phasesToCome, ModeEngine.startToCome,
      ModeEngine.started, hc, h.1.1, h.1.2]
    omega

theorem takeSense_toCome (s : State) (f : Surface) (h : s.senseTakeDue f = true) : (s.takeSense f).toCome < s.toCome := by
  simp only [State.senseTakeDue, Bool.and_eq_true, Bool.not_eq_true'] at h
  unfold State.takeSense
  cases hc : (s.unit f).slot.frame with
  | none => simp [hc] at h
  | some fr =>
    refine Nat.lt_of_le_of_lt (evaluateEnables_toCome _ _) ?_
    have hs : (s.takenSense f fr).store.commit = s.store.commit :=
      ((s.readPosture.store.afterRead_kept .cls _ _).2.1).trans (s.store.afterRead_kept .posture _ _).2.1
    have hu : (s.takenSense f fr).unitsToCome + 1 = s.unitsToCome := by
      cases f
      · have h1 : s.pad.forcedPending = false := h.2
        have h2 : s.pad.slot.frame = some fr := hc
        simp [State.unitsToCome, State.takenSense, State.setUnit, State.setSlots, State.unit, SurfaceUnit.toCome,
          Slot.empty, h1, h2, State.afterSnapshot]
        omega
      · have h1 : s.panel.forcedPending = false := h.2
        have h2 : s.panel.slot.frame = some fr := hc
        simp [State.unitsToCome, State.takenSense, State.setUnit, State.setSlots, State.unit, SurfaceUnit.toCome,
          Slot.empty, h1, h2, State.afterSnapshot]
        omega
    unfold State.toCome
    rw [hs, show (s.takenSense f fr).command = s.command from rfl, show (s.takenSense f fr).mode = s.mode from rfl]
    omega

theorem takePen_toCome (s : State) (h : s.penTakeDue = true) : s.takePen.toCome < s.toCome := by
  simp only [State.penTakeDue, Bool.and_eq_true, Bool.not_eq_true'] at h
  unfold State.takePen
  cases hc : s.pen.slot.frame with
  | none => simp [hc] at h
  | some fr =>
    refine Nat.lt_of_le_of_lt (evaluateEnables_toCome _ _) ?_
    have hs : (s.takenPen fr).store.commit = s.store.commit := (s.store.afterRead_kept .posture _ _).2.1
    have hu : (s.takenPen fr).unitsToCome + 1 = s.unitsToCome := by
      simp [State.unitsToCome, State.takenPen, PenUnit.toCome, Slot.empty, h.2, hc]
    unfold State.toCome
    rw [hs, show (s.takenPen fr).command = s.command from rfl, show (s.takenPen fr).mode = s.mode from rfl]
    omega

/-- An at-once step that is due lowers the measure. -/
theorem perform_toCome (s : State) (d : Due) (h : s.isDue d = true) : (s.perform d).toCome < s.toCome := by
  cases d with
  | softReset =>
    have hs : s.command.softReset = true := by
      simp only [State.isDue, State.softResetDue, Bool.and_eq_true] at h
      exact h.1.1.1
    show s.softResetEffect.toCome < s.toCome
    rw [softResetEffect_toCome]
    unfold State.toCome
    rw [hs]
    simp
  | forcedEnd f =>
    have hu := takeForcedEnd_units s f
    simp only [State.isDue] at h
    rw [h] at hu
    show (s.takeForcedEnd f).toCome < s.toCome
    unfold State.toCome
    simp at hu ⊢
    omega
  | penDrop =>
    have hu := takeDrop_units s
    simp only [State.isDue] at h
    rw [h] at hu
    show s.takeDrop.toCome < s.toCome
    unfold State.toCome
    simp at hu ⊢
    omega
  | swap =>
    simp only [State.isDue, Bool.and_eq_true] at h
    exact takeSwap_toCome s h.1
  | wakePhaseEnd => exact endWakePhase_toCome s h
  | transitionComplete => exact completeTransition_toCome s h
  | setModeStart => exact startSetMode_toCome s h
  | senseTake f => exact takeSense_toCome s f h
  | penTake => exact takePen_toCome s h

/-! ## In reset or not -/

theorem tellAll_inReset (ts : TableSet) (s : State) : (State.tellAll ts s).inReset = s.inReset := by
  induction ts generalizing s with
  | nil => rfl
  | cons t ts ih =>
    refine (ih _).trans ?_
    cases t with
    | posture => exact State.consultPosture_inReset s
    | zone => rfl
    | cls => rfl
    | gesture =>
      have h : ∀ (u : State) (f : Surface), (u.recheckGesture f).inReset = u.inReset := by
        intro u f
        unfold State.recheckGesture
        dsimp only
        split <;> rfl
      exact (h _ _).trans (h _ _)
    | pen => rfl

theorem perform_inReset {s : State} (h : s.inReset = false) (d : Due) : (s.perform d).inReset = false := by
  cases d with
  | softReset => rfl
  | forcedEnd f => simpa [State.perform] using h
  | penDrop => simpa [State.perform] using h
  | swap =>
    show s.takeSwap.inReset = false
    unfold State.takeSwap
    split
    · rw [tellAll_inReset]
      exact h
    · exact h
  | wakePhaseEnd =>
    show s.endWakePhase.inReset = false
    unfold State.endWakePhase
    split
    · dsimp only
      split <;> simpa using h
    · exact h
  | transitionComplete =>
    show s.completeTransition.inReset = false
    unfold State.completeTransition
    split
    · exact h
    · dsimp only
      split
      · simpa using h
      · split
        · simpa using h
        · split <;> simpa using h
  | setModeStart =>
    show s.startSetMode.inReset = false
    unfold State.startSetMode
    split
    · unfold State.drive
      split
      · simpa using h
      · split
        · simpa using h
        · split <;> simpa using h
    · exact h
  | senseTake f =>
    show (s.takeSense f).inReset = false
    unfold State.takeSense
    split
    · rw [State.evaluateEnables_inReset]
      exact h
    · exact h
  | penTake =>
    show s.takePen.inReset = false
    unfold State.takePen
    split
    · rw [State.evaluateEnables_inReset]
      exact h
    · exact h

theorem State.settle_inReset {s : State} (h : s.inReset = false) : s.settle.inReset = false :=
  State.settle_keeps (P := fun s => s.inReset = false) (fun _ d h _ => perform_inReset h d) (fun _ h => h) s h

end Sys2Proof.Machine
end

