-- ==== Sys2Proof/Laws/Queue.lean ====
section
/-! SUPPORT. What each way into and out of the Report Queue does, once and for all: the count, the line, and which
of the two a record finds. -/

namespace Sys2Proof.Machine

@[simp] theorem ReportQueue.enter_records (q : ReportQueue) (r : Record) :
    (q.enter r).records = q.records ++ [r] := rfl
@[simp] theorem ReportQueue.remove_records (q : ReportQueue) : q.remove.records = q.records.tail := rfl
theorem ReportQueue.evaluate_line (q : ReportQueue) : q.evaluate.attn = q.evaluate.drawsAttention := rfl

/-- An event kept out by the report mask (R152). -/
theorem ReportQueue.raise_masked {q : ReportQueue} {e : Event} (h : q.reports e = false) : q.raise e = q := by
  simp [ReportQueue.raise, h]

/-- A reported event with room (R159). -/
theorem ReportQueue.raise_room {q : ReportQueue} {e : Event} (h : q.reports e = true) (hr : q.records.length < 48) :
    q.raise e = q.enter (.event e) := by
  simp [ReportQueue.raise, h, hr]

/-- A reported event that finds 48 records (R159). -/
theorem ReportQueue.raise_full {q : ReportQueue} {e : Event} (h : q.reports e = true)
    (hr : ¬ q.records.length < 48) : q.raise e = { q with lost := sat16 q.lost } := by
  simp [ReportQueue.raise, h, hr]

theorem QueueInv.enter {q : ReportQueue} (h : q.records.length < 48) (r : Record) : QueueInv (q.enter r) :=
  ⟨by simp; omega, rfl⟩

/-- A change of the other fields of the queue keeps its two relations. -/
theorem QueueInv.of_same {q q' : ReportQueue} (h : QueueInv q) (hr : q'.records = q.records)
    (ha : q'.attn = q.attn) (hm : q'.attentionMask = q.attentionMask) : QueueInv q' := by
  obtain ⟨h1, h2⟩ := h
  exact ⟨by rw [hr]; exact h1, by rw [ha, h2, ReportQueue.drawsAttention, ReportQueue.drawsAttention, hr, hm]⟩

theorem QueueInv.raise {q : ReportQueue} (h : QueueInv q) (e : Event) : QueueInv (q.raise e) := by
  unfold ReportQueue.raise
  split
  · split
    · exact QueueInv.enter (by assumption) _
    · exact h.of_same rfl rfl rfl
  · exact h

theorem QueueInv.raiseAll {q : ReportQueue} (h : QueueInv q) (es : List Event) : QueueInv (q.raiseAll es) := by
  induction es generalizing q with
  | nil => exact h
  | cons e es ih => exact ih (h.raise e)

theorem QueueInv.offerResponse {q : ReportQueue} (h : QueueInv q) (r : Response) : QueueInv (q.offerResponse r) := by
  unfold ReportQueue.offerResponse
  split
  · exact QueueInv.enter (by assumption) _
  · exact h.of_same rfl rfl rfl

theorem QueueInv.offerBusy {q : ReportQueue} (h : QueueInv q) (k : BitVec 6) : QueueInv (q.offerBusy k) := by
  unfold ReportQueue.offerBusy
  split
  · exact QueueInv.enter (by assumption) _
  · exact h.of_same rfl rfl rfl

theorem QueueInv.remove {q : ReportQueue} (h : QueueInv q) : QueueInv q.remove := by
  refine ⟨?_, rfl⟩
  have := h.1
  simp
  omega

theorem QueueInv.setResync {q : ReportQueue} (h : QueueInv q) (d : DataStream) (v : Option Nat) :
    QueueInv (q.setResync d v) := h.of_same rfl rfl rfl

theorem QueueInv.offerData {q : ReportQueue} (h : QueueInv q) (f : DataStream → Restated) (d : DataStream)
    (r : Record) : QueueInv (q.offerData f d r).1 := by
  unfold ReportQueue.offerData
  split
  · split
    · exact QueueInv.enter (by omega) _
    · exact h.setResync _ _
  · split
    · exact (QueueInv.enter (by omega) _).setResync _ _
    · exact h.setResync _ _

theorem QueueInv.offerAll (f : DataStream → Restated) (g : List Offer) (ds : List DataStream) {q : ReportQueue}
    (h : QueueInv q) : QueueInv (ReportQueue.offerAll f g ds q) := by
  induction g generalizing ds q with
  | nil => exact h
  | cons o g ih =>
    cases o with
    | event e => exact ih _ (h.raise e)
    | data d r =>
      unfold ReportQueue.offerAll
      split
      · exact ih _ h
      · exact ih _ (h.offerData f d r)

theorem QueueInv.offer {s : State} (h : QueueInv s.queue) (g : List Offer) : QueueInv (s.offer g).queue :=
  QueueInv.offerAll _ _ _ h

theorem QueueInv.respond {s : State} (h : QueueInv s.queue) (k : BitVec 6) (v : Status) (r : Bytes) :
    QueueInv (s.respond k v r).queue := QueueInv.offerResponse h _

theorem QueueInv.offerPassUp {s : State} (h : QueueInv s.queue) (l : Surface) (k : BitVec 6) (p : Bytes) :
    QueueInv (s.offerPassUp l k p).queue := by
  unfold State.offerPassUp
  split
  · exact QueueInv.enter (by omega) _
  · exact h.raise _

theorem QueueInv.afterRead {s : State} (h : QueueInv s.queue) (t : Table) (k : Bank) (n : Nat) :
    QueueInv (s.afterRead t k n).queue := by
  unfold State.afterRead
  split
  · exact h.raise _
  · exact h

theorem QueueInv.afterReads (t : Table) (k : Bank) (ns : List Nat) {s : State} (h : QueueInv s.queue) :
    QueueInv (State.afterReads t k ns s).queue := by
  induction ns generalizing s with
  | nil => exact h
  | cons n ns ih => exact ih (h.afterRead t k n)

/-! ## The operations that offer records -/

theorem QueueInv.takeForcedEnd {s : State} (h : QueueInv s.queue) (f : Surface) : QueueInv (s.takeForcedEnd f).queue :=
  QueueInv.offer (s := s.forcedEndEffect f) (by simpa using h) _

theorem QueueInv.requestForcedEnd {s : State} (h : QueueInv s.queue) (f : Surface) :
    QueueInv (s.requestForcedEnd f).queue := by
  unfold State.requestForcedEnd
  split
  · exact h.takeForcedEnd f
  · exact h

theorem QueueInv.takeDrop {s : State} (h : QueueInv s.queue) : QueueInv s.takeDrop.queue :=
  QueueInv.offer (s := { s with pen := { s.pen.absent with dropPending := false } }) h _

theorem QueueInv.requestDrop {s : State} (h : QueueInv s.queue) : QueueInv s.requestDrop.queue := by
  unfold State.requestDrop
  split
  · exact h.takeDrop
  · exact h

theorem QueueInv.emptySlots {s : State} (h : QueueInv s.queue) (l : Surface) : QueueInv (s.emptySlots l).queue := by
  simpa using h

theorem QueueInv.evaluateScans {s : State} (h : QueueInv s.queue) : QueueInv s.evaluateScans.queue := by
  simpa using h

theorem QueueInv.quiet {s : State} (h : QueueInv s.queue) : QueueInv s.quiet.queue :=
  (((((h.emptySlots .pad).emptySlots .panel).requestForcedEnd .pad).requestForcedEnd .panel)).requestDrop

theorem QueueInv.enterStalled {s : State} (h : QueueInv s.queue) (l : Surface) (c : StallCause) :
    QueueInv (s.enterStalled l c).queue := by
  unfold State.enterStalled
  split
  · exact h
  · have h' : QueueInv ({ s.setLink l (s.link l).stalled with
        queue := s.queue.raiseAll (s.stallEvents l c) } : State).queue := h.raiseAll _
    cases l with
    | pad => exact (h'.emptySlots .pad).requestForcedEnd .pad
    | panel => exact ((h'.emptySlots .panel).requestForcedEnd .panel).requestDrop

theorem QueueInv.linkTimeout {s : State} (h : QueueInv s.queue) (l : Surface) (c : StallCause) :
    QueueInv (s.linkTimeout l c).queue := by
  unfold State.linkTimeout
  split
  · exact h
  · exact h.enterStalled l c

theorem QueueInv.enterOff {s : State} (h : QueueInv s.queue) (l : Surface) : QueueInv (s.enterOff l).queue := by
  unfold State.enterOff
  dsimp only
  split
  · exact h.raiseAll _
  · exact h

theorem QueueInv.recover {s : State} (h : QueueInv s.queue) (l : Surface) : QueueInv (s.recover l).queue := by
  unfold State.recover
  dsimp only
  split
  · exact h.raise _
  · exact h

theorem QueueInv.disableWhen {s : State} (h : QueueInv s.queue) (f : Surface) (g : Bool) :
    QueueInv (s.disableWhen f g).queue := by
  unfold State.disableWhen
  split
  · cases f with
    | pad => exact QueueInv.requestForcedEnd (by simpa using h) .pad
    | panel => exact ((h.emptySlots .panel).requestForcedEnd .panel).requestDrop
  · exact h

theorem QueueInv.evaluateEnables {s : State} (h : QueueInv s.queue) (e : Enables) :
    QueueInv (s.evaluateEnables e).queue := by
  unfold State.evaluateEnables
  dsimp only
  split
  · exact h
  · exact (((show QueueInv (s.withEnables e).queue from h).disableWhen .pad _).disableWhen .panel _).evaluateScans

theorem QueueInv.readActive {s : State} (h : QueueInv s.queue) (t : Table) (n : Nat) :
    QueueInv (s.readActive t n).queue := h.afterRead t _ n

theorem QueueInv.readPosture {s : State} (h : QueueInv s.queue) : QueueInv s.readPosture.queue := h.readActive _ _

theorem QueueInv.consultPosture {s : State} (h : QueueInv s.queue) : QueueInv s.consultPosture.queue :=
  h.readPosture.evaluateEnables _

theorem QueueInv.beginScan {s : State} (h : QueueInv s.queue) (m : Mode) (c : Cause) :
    QueueInv (s.beginScan m c).queue := by simpa using h

theorem QueueInv.reportReturn {s : State} (h : QueueInv s.queue) : QueueInv s.reportReturn.queue := by simpa using h

theorem QueueInv.finish {s : State} (h : QueueInv s.queue) : QueueInv s.finish.queue := h

/-- An answer that finds room leaves what waits; one that finds none waits (R160). -/
theorem State.respond_waiting (s : State) (k : BitVec 6) (v : Status) (r : Bytes) :
    (s.respond k v r).queue.waiting =
      if s.queue.records.length < 48 then s.queue.waiting else some { kind := k, status := v, result := r } := by
  unfold State.respond ReportQueue.offerResponse
  dsimp only
  split <;> rfl

end Sys2Proof.Machine
end

