-- ==== Sys2Proof/Laws/Moves.lean ====
section
/-! SUPPORT. What every step's effect does to the Track Table's slots, the Pen Record, the frame holds, the Report
Queue and the Row Fault List, as one relation between the state before and after; the takes and the completions of
frames, the births and the resets apart. -/

namespace Sys2Proof.Machine

/-- The effect frees slots or keeps their tracks, grants no contact id, and keeps the relations of the Pen Record,
the Report Queue and the Row Fault List. -/
structure Keeps (s t : State) : Prop where
  slots : SlotsFrom s.tracks.slots t.tracks.slots
  nextId : t.tracks.nextId = s.tracks.nextId
  pen : PenInv s.pen → PenInv t.pen
  queue : QueueInv s.queue → QueueInv t.queue
  faults : FaultsInv s.store → FaultsInv t.store

/-- An effect that `Keeps` describes and that starts or ends no frame operation. -/
structure Moves (s t : State) : Prop extends Keeps s t where
  holds : t.store.holds = s.store.holds
  padOp : t.pad.op.isSome = s.pad.op.isSome
  panelOp : t.panel.op.isSome = s.panel.op.isSome
  penOp : t.pen.op.isSome = s.pen.op.isSome

theorem Keeps.refl (s : State) : Keeps s s := ⟨SlotsFrom.refl _, rfl, id, id, id⟩

theorem Keeps.trans {s t u : State} (h : Keeps s t) (h' : Keeps t u) : Keeps s u :=
  ⟨h.slots.trans h'.slots, h'.nextId.trans h.nextId, h'.pen ∘ h.pen, h'.queue ∘ h.queue, h'.faults ∘ h.faults⟩

theorem Moves.refl (s : State) : Moves s s := ⟨Keeps.refl s, rfl, rfl, rfl, rfl⟩

theorem Moves.trans {s t u : State} (h : Moves s t) (h' : Moves t u) : Moves s u :=
  ⟨h.toKeeps.trans h'.toKeeps, h'.holds.trans h.holds, h'.padOp.trans h.padOp, h'.panelOp.trans h.panelOp,
    h'.penOp.trans h.penOp⟩

/-- No frame operation starts or ends, so the count of holds still is the number of operations. -/
theorem Moves.holdsInv {s t : State} (h : Moves s t) (hi : HoldsInv s) : HoldsInv t := by
  unfold HoldsInv State.operations at *
  rw [h.holds, h.padOp, h.panelOp, h.penOp]
  exact hi

/-- An effect outside tracks, surfaces and pen. -/
theorem Moves.ofStore {s t : State} (h1 : t.tracks = s.tracks) (h2 : t.pen = s.pen) (h3 : t.pad = s.pad)
    (h4 : t.panel = s.panel) (hs : t.store.holds = s.store.holds) (hq : QueueInv s.queue → QueueInv t.queue)
    (hf : FaultsInv s.store → FaultsInv t.store) : Moves s t :=
  ⟨⟨by rw [h1]; exact SlotsFrom.refl _, by rw [h1], by rw [h2]; exact id, hq, hf⟩, hs, by rw [h3], by rw [h4], by rw [h2]⟩

/-- An effect outside tracks, surfaces, pen and tables. -/
theorem Moves.of {s t : State} (h1 : t.tracks = s.tracks) (h2 : t.pen = s.pen) (h3 : t.pad = s.pad)
    (h4 : t.panel = s.panel) (hs : t.store = s.store) (hq : QueueInv s.queue → QueueInv t.queue) : Moves s t :=
  Moves.ofStore h1 h2 h3 h4 (by rw [hs]) hq (by rw [hs]; exact id)

theorem Moves.withMode (s : State) (m : ModeEngine) : Moves s { s with mode := m } := Moves.of rfl rfl rfl rfl rfl id

theorem Moves.withGesture (s : State) (g : GestureUnit) : Moves s { s with gesture := g } :=
  Moves.of rfl rfl rfl rfl rfl id

theorem Moves.withCommand (s : State) (c : CommandUnit) : Moves s { s with command := c } :=
  Moves.of rfl rfl rfl rfl rfl id

theorem Moves.withPalm (s : State) (p : PalmFilter) : Moves s { s with palm := p } := Moves.of rfl rfl rfl rfl rfl id

theorem Moves.withPort (s : State) (p : HostPort) : Moves s { s with port := p } := Moves.of rfl rfl rfl rfl rfl id

theorem Moves.withStore (s : State) (st : TableStore) (hh : st.holds = s.store.holds)
    (hf : FaultsInv s.store → FaultsInv st) : Moves s { s with store := st } := Moves.ofStore rfl rfl rfl rfl hh id hf

/-- The relation of the Pen Record looks at six of its fields. -/
theorem PenInv.of {p q : PenUnit} (h : PenInv p) (h1 : q.state = p.state) (h2 : q.followed = p.followed)
    (h3 : q.linger = p.linger) (h4 : q.conflict = p.conflict) (h5 : q.guard = p.guard)
    (h6 : q.lastSample = p.lastSample) : PenInv q := by
  unfold PenInv at *
  rw [h1, h2, h3, h4, h5, h6]
  exact h

theorem PenInv.absent (p : PenUnit) : PenInv p.absent := ⟨rfl, rfl, rfl, rfl⟩

/-- An effect on the pen record's other fields alone. -/
theorem Moves.ofPen {s t : State} (h1 : t.tracks = s.tracks) (hp : PenInv s.pen → PenInv t.pen)
    (ho : t.pen.op = s.pen.op) (h3 : t.pad.op = s.pad.op) (h4 : t.panel.op = s.panel.op) (hs : t.store = s.store)
    (hq : QueueInv s.queue → QueueInv t.queue) : Moves s t :=
  ⟨⟨by rw [h1]; exact SlotsFrom.refl _, by rw [h1], hp, hq, by rw [hs]; exact id⟩, by rw [hs], by rw [h3],
    by rw [h4], by rw [ho]⟩

/-! ## Table Store -/

theorem Moves.afterRead (s : State) (t : Table) (k : Bank) (n : Nat) : Moves s (s.afterRead t k n) :=
  Moves.ofStore rfl rfl rfl rfl (TableStore.afterRead_kept s.store t k n).1 (fun h => h.afterRead t k n)
    (fun h => h.afterRead t k n)

theorem Moves.afterReads (t : Table) (k : Bank) (ns : List Nat) (s : State) : Moves s (State.afterReads t k ns s) := by
  induction ns generalizing s with
  | nil => exact Moves.refl s
  | cons n ns ih => exact (Moves.afterRead s t k n).trans (ih _)

theorem Moves.readActive (s : State) (t : Table) (n : Nat) : Moves s (s.readActive t n) := Moves.afterRead s t _ n

theorem Moves.readPosture (s : State) : Moves s s.readPosture := Moves.readActive s _ _

theorem TableStore.flipAll_kept (ts : TableSet) (st : TableStore) :
    (TableStore.flipAll ts st).holds = st.holds ∧ (TableStore.flipAll ts st).faults = st.faults := by
  induction ts generalizing st with
  | nil => exact ⟨rfl, rfl⟩
  | cons t ts ih => exact ⟨(ih _).1.trans (by cases t <;> rfl), (ih _).2.trans (by cases t <;> rfl)⟩

theorem TableStore.setStatuses_kept (v : Staging) (ts : List Table) (st : TableStore) :
    (TableStore.setStatuses v ts st).holds = st.holds ∧ (TableStore.setStatuses v ts st).faults = st.faults := by
  induction ts generalizing st with
  | nil => exact ⟨rfl, rfl⟩
  | cons t ts ih => exact ⟨(ih _).1.trans (by cases t <;> rfl), (ih _).2.trans (by cases t <;> rfl)⟩

theorem TableStore.writeRows_holds (t : Table) (k : Bank) (rs : List Bytes) (n : Nat) (st : TableStore) :
    (TableStore.writeRows t k n rs st).holds = st.holds := by
  induction rs generalizing st n with
  | nil => rfl
  | cons r rs ih => exact (ih _ _).trans (by cases t <;> rfl)

theorem FaultsInv.writeRows (t : Table) (k : Bank) (rs : List Bytes) (n : Nat) {st : TableStore} (h : FaultsInv st) :
    FaultsInv (TableStore.writeRows t k n rs st) := by
  induction rs generalizing st n with
  | nil => exact h
  | cons r rs ih => exact ih _ (h.writeRow t k n _)

theorem FaultsInv.of {st st' : TableStore} (h : FaultsInv st) (hf : st'.faults = st.faults) : FaultsInv st' := by
  unfold FaultsInv
  rw [hf]
  exact h

theorem Moves.copyRows (t : Table) (ns : List Nat) (s : State) : Moves s (State.copyRows t ns s) := by
  induction ns generalizing s with
  | nil => exact Moves.refl s
  | cons n ns ih =>
    refine Moves.trans ((Moves.readActive s t n).trans ?_) (ih _)
    exact Moves.ofStore rfl rfl rfl rfl (by cases t <;> rfl) id (fun h => h.writeRow _ _ _ _)

theorem Moves.afterPass (bs : List (Table × Bank)) (s : State) : Moves s (State.afterPass bs s) := by
  induction bs generalizing s with
  | nil => exact Moves.refl s
  | cons b bs ih => exact (Moves.afterReads _ _ _ s).trans (ih _)

/-! ## Records -/

theorem Moves.offer (s : State) (g : List Offer) : Moves s (s.offer g) :=
  Moves.of rfl rfl rfl rfl rfl (fun h => h.offer g)

theorem Moves.respond (s : State) (k : BitVec 6) (v : Status) (r : Bytes) : Moves s (s.respond k v r) :=
  Moves.of rfl rfl rfl rfl rfl (fun h => h.respond k v r)

theorem Moves.raise (s : State) (e : Event) : Moves s (s.raise e) :=
  Moves.of rfl rfl rfl rfl rfl (fun h => h.raise e)

theorem Moves.enterWaiting (s : State) : Moves s s.enterWaiting := by
  unfold State.enterWaiting
  split
  · split
    · rename_i r _ hl
      exact Moves.of rfl rfl rfl rfl rfl (fun _ => QueueInv.enter (q := { s.queue with waiting := none }) hl _)
    · exact Moves.refl s
  · exact Moves.refl s

/-! ## Forced ends, drops, stalls, enables -/

theorem Moves.takeForcedEnd (s : State) (f : Surface) : Moves s (s.takeForcedEnd f) :=
  ⟨⟨freeSurface_from f _, rfl, by cases f <;> exact id, fun h => h.takeForcedEnd f, by cases f <;> exact id⟩,
    by cases f <;> rfl, by cases f <;> rfl, by cases f <;> rfl, by cases f <;> rfl⟩

theorem Moves.requestForcedEnd (s : State) (f : Surface) : Moves s (s.requestForcedEnd f) := by
  unfold State.requestForcedEnd
  split
  · exact Moves.takeForcedEnd s f
  · cases f <;> exact ⟨⟨SlotsFrom.refl _, rfl, id, id, id⟩, rfl, rfl, rfl, rfl⟩

theorem Moves.takeDrop (s : State) : Moves s s.takeDrop :=
  Moves.ofPen rfl (fun _ => PenInv.absent s.pen) rfl rfl rfl rfl (fun h => h.takeDrop)

theorem Moves.requestDrop (s : State) : Moves s s.requestDrop := by
  unfold State.requestDrop
  split
  · exact Moves.takeDrop s
  · exact Moves.ofPen rfl (fun h => h.of rfl rfl rfl rfl rfl rfl) rfl rfl rfl rfl id

theorem Moves.emptySlots (s : State) (l : Surface) : Moves s (s.emptySlots l) := by
  cases l
  · exact ⟨⟨SlotsFrom.refl _, rfl, id, id, id⟩, rfl, rfl, rfl, rfl⟩
  · exact Moves.ofPen rfl (fun h => h.of rfl rfl rfl rfl rfl rfl) rfl rfl rfl rfl id

theorem Moves.quiet (s : State) : Moves s s.quiet :=
  ((((Moves.emptySlots s .pad).trans (Moves.emptySlots _ .panel)).trans (Moves.requestForcedEnd _ .pad)).trans
    (Moves.requestForcedEnd _ .panel)).trans (Moves.requestDrop _)

theorem Moves.enterStalled (s : State) (l : Surface) (c : StallCause) : Moves s (s.enterStalled l c) := by
  unfold State.enterStalled
  split
  · exact Moves.refl s
  · have h1 : Moves s { s.setLink l (s.link l).stalled with queue := s.queue.raiseAll (s.stallEvents l c) } := by
      cases l <;> exact Moves.of rfl rfl rfl rfl rfl (fun h => h.raiseAll _)
    dsimp only
    generalize { s.setLink l (s.link l).stalled with queue := s.queue.raiseAll (s.stallEvents l c) } = u at h1
    have h2 : Moves s ((u.emptySlots l).requestForcedEnd l) :=
      (h1.trans (Moves.emptySlots u l)).trans (Moves.requestForcedEnd _ l)
    cases l
    · exact h2
    · exact h2.trans (Moves.requestDrop _)

theorem Moves.linkTimeout (s : State) (l : Surface) (c : StallCause) : Moves s (s.linkTimeout l c) := by
  unfold State.linkTimeout
  split
  · exact Moves.refl s
  · exact Moves.enterStalled s l c

theorem Moves.setLink (s : State) (l : Surface) (k : Link) : Moves s (s.setLink l k) := by
  cases l <;> exact Moves.of rfl rfl rfl rfl rfl id

theorem Moves.evaluateScans (s : State) : Moves s s.evaluateScans :=
  Moves.of (by simp) (by simp) (by simp) (by simp) (by simp) (fun h => h.evaluateScans)

theorem Moves.recover (s : State) (l : Surface) : Moves s (s.recover l) :=
  Moves.of (by simp) (by simp) (by simp) (by simp) (by simp) (fun h => h.recover l)

theorem Moves.enterOff (s : State) (l : Surface) : Moves s (s.enterOff l) :=
  Moves.of (by simp) (by simp) (by simp) (by simp) (by simp) (fun h => h.enterOff l)

theorem Moves.disableWhen (s : State) (f : Surface) (g : Bool) : Moves s (s.disableWhen f g) := by
  unfold State.disableWhen
  split
  · cases f with
    | pad =>
      exact ((Moves.emptySlots s .pad).trans (Moves.withGesture _ _)).trans (Moves.requestForcedEnd _ .pad)
    | panel =>
      exact ((Moves.emptySlots s .panel).trans (Moves.requestForcedEnd _ .panel)).trans (Moves.requestDrop _)
  · exact Moves.refl s

theorem Moves.evaluateEnables (s : State) (e : Enables) : Moves s (s.evaluateEnables e) := by
  unfold State.evaluateEnables
  dsimp only
  split
  · exact Moves.refl s
  · exact (((Moves.withCommand s _).trans (Moves.disableWhen _ _ _)).trans (Moves.disableWhen _ _ _)).trans
      (Moves.evaluateScans _)

theorem Moves.consultPosture (s : State) : Moves s s.consultPosture :=
  (Moves.readPosture s).trans (Moves.evaluateEnables _ _)

/-! ## Mode Engine and swap -/

theorem Moves.beginScan (s : State) (m : Mode) (c : Cause) : Moves s (s.beginScan m c) :=
  (Moves.withMode s _).trans (Moves.evaluateScans _)

theorem Moves.reportReturn (s : State) : Moves s s.reportReturn :=
  Moves.of (by simp) (by simp) (by simp) (by simp) (by simp) (fun h => h.reportReturn)

theorem Moves.setContext (s : State) (f : Surface) (c : Context) : Moves s (s.setContext f c) := by
  cases f <;> exact ⟨⟨SlotsFrom.refl _, rfl, id, id, id⟩, rfl, rfl, rfl, rfl⟩

theorem Moves.recheckGesture (s : State) (f : Surface) : Moves s (s.recheckGesture f) := by
  unfold State.recheckGesture
  dsimp only
  split
  · exact ((Moves.readActive s _ _).trans (Moves.setContext _ f _)).trans (Moves.offer _ _)
  · exact Moves.setContext _ _ _

theorem Moves.tellAll (ts : TableSet) (s : State) : Moves s (State.tellAll ts s) := by
  induction ts generalizing s with
  | nil => exact Moves.refl s
  | cons t ts ih =>
    refine Moves.trans ?_ (ih _)
    cases t with
    | posture => exact Moves.consultPosture s
    | zone => exact Moves.refl s
    | cls => exact Moves.refl s
    | gesture => exact (Moves.recheckGesture s .pad).trans (Moves.recheckGesture _ .panel)
    | pen => exact Moves.ofPen rfl (fun h => h.of rfl rfl rfl rfl rfl rfl) rfl rfl rfl rfl id

theorem Moves.answerSetMode (s : State) : Moves s s.answerSetMode :=
  Moves.of rfl rfl rfl rfl rfl (fun h => QueueInv.respond (s := { s with mode := { s.mode with setMode := none } }) h _ _ _)

theorem Moves.drive (s : State) (m : Mode) : Moves s (s.drive m) := by
  unfold State.drive
  split
  · exact Moves.answerSetMode s
  · split
    · exact Moves.ofStore (by simp) (by simp) (by simp) (by simp) (by simp [State.beginWake]) (fun h => by simpa using h)
        (fun h => h.of (by simp [State.beginWake]))
    · cases m with
      | doze =>
        exact ((Moves.withMode s _).trans (Moves.quiet _)).trans (Moves.evaluateScans _)
      | sleep =>
        exact ((((Moves.withMode s _).trans (Moves.quiet _)).trans (Moves.enterOff _ .pad)).trans
          (Moves.enterOff _ .panel)).trans (Moves.evaluateScans _)
      | active => exact Moves.beginScan _ _ _
      | idle => exact Moves.beginScan _ _ _
      | waking => exact Moves.refl s

theorem Moves.takeSwap (s : State) : Moves s s.takeSwap := by
  unfold State.takeSwap
  split
  · rename_i ts _
    have h := TableStore.flipAll_kept ts s.store
    refine Moves.trans ?_ (Moves.tellAll ts _)
    exact (Moves.withStore s { TableStore.flipAll ts s.store with commit := none } h.1 (fun hf => hf.of h.2)).trans
      (Moves.respond _ _ _ _)
  · exact Moves.refl s

theorem Moves.endWakePhase (s : State) : Moves s s.endWakePhase := by
  unfold State.endWakePhase
  split
  · rename_i t _
    dsimp only
    have h : Moves s (State.evaluateScans { s.raise s.diagEvent with mode := s.wokenEngine t.target }) :=
      ((Moves.raise s s.diagEvent).trans (Moves.withMode _ _)).trans (Moves.evaluateScans _)
    split
    · exact h.trans (Moves.quiet _)
    · exact h
  · exact Moves.refl s

theorem Moves.completeTransition (s : State) : Moves s s.completeTransition := by
  unfold State.completeTransition
  split
  · exact Moves.refl s
  · rename_i t _
    dsimp only
    have h : Moves s (State.raise { s with mode := { s.mode with transition := none } } (.modeChanged s.mode.mode t.cause)) :=
      (Moves.withMode s _).trans (Moves.raise _ _)
    split
    · exact h.trans (Moves.answerSetMode _)
    · split
      · exact h
      · split
        · exact (h.trans (Moves.withMode _ _)).trans (Moves.beginScan _ _ _)
        · exact h

theorem Moves.startSetMode (s : State) : Moves s s.startSetMode := by
  unfold State.startSetMode
  split
  · exact (Moves.withMode s _).trans (Moves.drive _ _)
  · exact Moves.refl s

/-- Every at-once step but SOFT_RESET_EFFECT and the takes. -/
theorem perform_moves (s : State) (d : Due) (hr : d ≠ .softReset) (hs : ∀ f, d ≠ .senseTake f) (hp : d ≠ .penTake) :
    Moves s (s.perform d) := by
  cases d with
  | softReset => exact absurd rfl hr
  | forcedEnd f => exact Moves.takeForcedEnd s f
  | penDrop => exact Moves.takeDrop s
  | swap => exact Moves.takeSwap s
  | wakePhaseEnd => exact Moves.endWakePhase s
  | transitionComplete => exact Moves.completeTransition s
  | setModeStart => exact Moves.startSetMode s
  | senseTake f => exact absurd rfl (hs f)
  | penTake => exact absurd rfl hp

/-! ## Packets, frames and lines -/

theorem Moves.lookups (p : Nat) (ps : List (Nat × Nat)) (s : State) : Moves s (State.afterLookups p ps s) := by
  induction ps generalizing s with
  | nil => exact Moves.refl s
  | cons a ps ih => exact (Moves.afterReads _ _ _ s).trans (ih _)

theorem Moves.putSense (s : State) (f : Surface) (fr : SenseFrame) : Moves s (s.putSense f fr) := by
  cases f <;> exact ⟨⟨SlotsFrom.refl _, rfl, id, id, id⟩, rfl, rfl, rfl, rfl⟩

theorem Moves.packetArrives (s : State) (l : Surface) (bs : Bytes) : Moves s (s.packetArrives l bs) := by
  unfold State.packetArrives State.sortPacket
  split
  · split
    · unfold State.sensePayload
      split
      · unfold State.senseArrives
        dsimp only
        have h : Moves s (((s.restartWatch l).recover l).consultPosture) :=
          ((Moves.setLink s l _).trans (Moves.recover _ l)).trans (Moves.consultPosture _)
        split
        · exact h
        · exact h.trans (Moves.putSense _ _ _)
      · exact Moves.setLink s l _
    · split
      · unfold State.penPayload
        cases l with
        | pad => exact Moves.setLink s .pad _
        | panel =>
          dsimp only
          split
          · split
            · exact Moves.refl s
            · exact Moves.ofPen rfl (fun h => h.of rfl rfl rfl rfl rfl rfl) rfl rfl rfl rfl id
          · exact Moves.setLink s .panel _
      · split
        · unfold State.ackPayload
          split
          · exact Moves.setLink s l _
          · exact Moves.refl s
        · split
          · unfold State.wakeArrives
            split
            · exact (Moves.raise s _).trans (Moves.beginScan _ _ _)
            · exact Moves.refl s
          · split
            · unfold State.idReplyArrives
              split
              · exact (Moves.setLink s l _).trans (Moves.recover _ l)
              · exact Moves.refl s
            · unfold State.passUpArrives
              split
              · exact Moves.of (by simp) (by simp) (by simp) (by simp) (by simp) (fun h => h.offerPassUp _ _ _)
              · exact Moves.raise s _
  · exact Moves.setLink s l _

/-! ## Host commands -/

theorem Moves.takeFree (s : State) (c : Command) (p : Bytes) (run : State → State) (h : ∀ u, Moves u (run u)) :
    Moves s (s.takeFree c p run) := by
  unfold State.takeFree
  split
  · exact (Moves.withCommand s _).trans (h _)
  · exact (Moves.withCommand s _).trans (Moves.respond _ _ _ _)

theorem Moves.takeControl (s : State) (c : Command) (p : Bytes) (run : State → State) (h : ∀ u, Moves u (run u)) :
    Moves s (s.takeControl c p run) := by
  unfold State.takeControl
  split
  · exact Moves.of rfl rfl rfl rfl rfl (fun hq => hq.offerBusy _)
  · exact Moves.takeFree s c p run h

/-- A refusal or an answer after a change of the Table Store. -/
theorem Moves.storeRespond (s : State) (st : TableStore) (hh : st.holds = s.store.holds)
    (hf : FaultsInv s.store → FaultsInv st) (k : BitVec 6) (v : Status) (r : Bytes) :
    Moves s (State.respond { s with store := st } k v r) :=
  (Moves.withStore s st hh hf).trans (Moves.respond _ _ _ _)

theorem Moves.closeLoad (s : State) (t : Table) (v : Staging) (k : BitVec 6) (w : Status) (r : Bytes) :
    Moves s (State.respond { s with store := s.store.closeLoad t v } k w r) :=
  Moves.storeRespond s _ (by cases t <;> rfl) (fun h => h.of (by cases t <;> rfl)) _ _ _

theorem Moves.runLoadBegin (s : State) (p : Bytes) : Moves s (s.runLoadBegin p) := by
  unfold State.runLoadBegin
  split
  · rename_i t _ _
    exact Moves.storeRespond s _ (by cases t <;> rfl) (fun h => h.of (by cases t <;> rfl)) _ _ _
  · exact Moves.respond s _ _ _
  · exact Moves.respond s _ _ _

theorem Moves.runLoadRows (s : State) (p : Bytes) : Moves s (s.runLoadRows p) := by
  unfold State.runLoadRows
  split
  · exact Moves.respond s _ _ _
  · rename_i ld _
    split
    · exact Moves.closeLoad s _ _ _ _ _
    · refine Moves.storeRespond s (s.store.takeRows ld p) (TableStore.writeRows_holds _ _ _ _ _) (fun h => ?_) _ _ _
      unfold TableStore.takeRows
      exact (FaultsInv.writeRows _ _ _ _ h).of rfl

theorem Moves.runLoadEnd (s : State) (p : Bytes) : Moves s (s.runLoadEnd p) := by
  unfold State.runLoadEnd
  split
  · exact Moves.respond s _ _ _
  · exact Moves.closeLoad s _ _ _ _ _

theorem Moves.runLoadAbort (s : State) : Moves s s.runLoadAbort := by
  unfold State.runLoadAbort
  split
  · exact Moves.respond s _ _ _
  · exact Moves.closeLoad s _ _ _ _ _

theorem Moves.loadTimeout (s : State) : Moves s s.loadTimeout := by
  unfold State.loadTimeout
  split
  · exact Moves.refl s
  · rename_i ld _
    exact (Moves.withStore s _ (by cases ld.table <;> rfl) (fun h => h.of (by cases ld.table <;> rfl))).trans
      (Moves.raise _ _)

theorem Moves.runCommit (s : State) (p : Bytes) : Moves s (s.runCommit p) := by
  unfold State.runCommit
  dsimp only
  split
  · exact Moves.respond s _ _ _
  · split
    · exact Moves.respond s _ _ _
    · split
      · exact Moves.respond s _ _ _
      · exact Moves.withStore s _ rfl (fun h => h.of rfl)

theorem Moves.runRevert (s : State) (p : Bytes) : Moves s (s.runRevert p) := by
  unfold State.runRevert
  dsimp only
  split
  · exact Moves.respond s _ _ _
  · split
    · exact Moves.respond s _ _ _
    · have h := TableStore.setStatuses_kept .copying (tableSetOf (u8At p 0)) s.store
      exact (Moves.withStore s _ h.1 (fun hf => hf.of h.2)).trans (Moves.withCommand _ _)

theorem Moves.runReadRows (s : State) (p : Bytes) : Moves s (s.runReadRows p) := by
  unfold State.runReadRows
  dsimp only
  split
  · exact Moves.respond s _ _ _
  · split
    · exact Moves.respond s _ _ _
    · split
      · exact Moves.respond s _ _ _
      · split
        · exact Moves.respond s _ _ _
        · exact (Moves.afterReads _ _ _ s).trans (Moves.respond _ _ _ _)

theorem Moves.runVerify (s : State) (p : Bytes) : Moves s (s.runVerify p) := by
  unfold State.runVerify
  dsimp only
  split
  · exact Moves.respond s _ _ _
  · split
    · exact Moves.respond s _ _ _
    · exact Moves.withStore s _ rfl (fun h => h.of rfl)

theorem Moves.runLockZones (s : State) (p : Bytes) : Moves s (s.runLockZones p) := by
  unfold State.runLockZones
  dsimp only
  split
  · exact Moves.respond s _ _ _
  · split
    · exact Moves.respond s _ _ _
    · split
      · exact Moves.respond s _ _ _
      · exact Moves.storeRespond s { s.store with lock := u8At p 0 } rfl (fun h => h.of rfl) _ _ _

theorem Moves.runSetPosture (s : State) (p : Bytes) : Moves s (s.runSetPosture p) := by
  unfold State.runSetPosture
  split
  · exact Moves.respond s _ _ _
  · exact ((Moves.withCommand s _).trans (Moves.consultPosture _)).trans (Moves.respond _ _ _ _)

theorem Moves.runSetMode (s : State) (p : Bytes) : Moves s (s.runSetMode p) := by
  unfold State.runSetMode
  split
  · exact Moves.withMode s _
  · exact Moves.respond s _ _ _

theorem Moves.runClearCounters (s : State) : Moves s s.runClearCounters := by
  refine Moves.trans (t := s.clearCounters) ?_ (Moves.respond _ _ _ _)
  exact ⟨⟨SlotsFrom.refl _, rfl, fun h => h.of rfl rfl rfl rfl rfl rfl, fun h => h.of_same rfl rfl rfl,
    fun h => h.of rfl⟩, rfl, rfl, rfl, rfl⟩

theorem Moves.endCopy (s : State) (t : Table) : Moves s (s.endCopy t) := by
  unfold State.endCopy
  split
  · dsimp only
    refine (Moves.copyRows t (s.store.copiedRows t) s).trans ?_
    generalize State.copyRows t (s.store.copiedRows t) s = u
    refine Moves.trans (Moves.withStore u (u.store.setStatus t .clean) (by cases t <;> rfl)
      (fun h => h.of (by cases t <;> rfl))) ?_
    unfold State.answerRevert
    split
    · split
      · exact Moves.refl _
      · exact (Moves.withCommand _ _).trans (Moves.respond _ _ _ _)
    · exact Moves.refl _
  · exact Moves.refl s

theorem Moves.endVerify (s : State) : Moves s s.endVerify := by
  unfold State.endVerify
  split
  · exact Moves.refl s
  · rename_i v _
    dsimp only
    have h := Moves.afterPass (s.store.passBanks v) s
    generalize State.afterPass (s.store.passBanks v) s = u at h
    have h' := h.trans (Moves.withStore u { u.store with verify := none } rfl (fun hf => hf.of rfl))
    cases v with
    | command ts => exact h'.trans (Moves.respond _ _ _ _)
    | wake => exact h'.trans (Moves.withMode _ _)

theorem Moves.hostFault (s : State) (r : LinkErrorReason) : Moves s (s.hostFault r) :=
  (Moves.withPort s _).trans (Moves.raise _ _)

/-! ## The host port -/

theorem Moves.setTransfer (s : State) (t : Transfer) : Moves s (s.setTransfer t) := Moves.withPort s _

theorem Moves.runGetStatus (s : State) : Moves s s.runGetStatus :=
  Moves.trans (t := { s with freeCount := s.freeCount + 1 }) (Moves.of rfl rfl rfl rfl rfl id) (Moves.respond _ _ _ _)

theorem Moves.runSetNotices (s : State) (p : Bytes) : Moves s (s.runSetNotices p) :=
  Moves.trans (t := { s with queue := s.queue.withMasks p })
    (Moves.of rfl rfl rfl rfl rfl (fun h => ⟨h.1, rfl⟩)) (Moves.respond _ _ _ _)

theorem Moves.run (c : Command) (p : Bytes) (s : State) : Moves s (c.run p s) := by
  cases c with
  | identify => exact Moves.respond s _ _ _
  | getStatus => exact Moves.runGetStatus s
  | setMode => exact Moves.runSetMode s p
  | setPosture => exact Moves.runSetPosture s p
  | setNotices => exact Moves.runSetNotices s p
  | loadBegin => exact Moves.runLoadBegin s p
  | loadRows => exact Moves.runLoadRows s p
  | loadEnd => exact Moves.runLoadEnd s p
  | loadAbort => exact Moves.runLoadAbort s
  | commit => exact Moves.runCommit s p
  | revert => exact Moves.runRevert s p
  | readRows => exact Moves.runReadRows s p
  | verify => exact Moves.runVerify s p
  | lockZones => exact Moves.runLockZones s p
  | clearCounters => exact Moves.runClearCounters s
  | softReset => exact Moves.refl s

theorem Moves.takeUnknown (s : State) (k : BitVec 6) : Moves s (s.takeUnknown k) := by
  unfold State.takeUnknown
  split
  · exact Moves.of rfl rfl rfl rfl rfl (fun hq => hq.offerBusy _)
  · exact (Moves.withCommand s _).trans (Moves.respond _ _ _ _)

theorem Moves.passDown (s : State) (l : Surface) (h : HostPacket) : Moves s (s.passDown l h) := by
  unfold State.passDown
  split
  · exact Moves.raise s _
  · exact Moves.setLink s l _

theorem Moves.takePacket (s : State) (ch : BitVec 2) (k : BitVec 6) (p : Bytes) : Moves s (s.takePacket ch k p) := by
  unfold State.takePacket
  split
  · unfold State.takeControlPacket
    split
    · exact Moves.withCommand s _
    · exact Moves.takeControl s _ _ _ (Moves.run _ p)
    · exact Moves.takeUnknown s k
  · split
    · exact Moves.passDown s _ _
    · split
      · exact Moves.passDown s _ _
      · exact Moves.hostFault s _

theorem Moves.endWrite (s : State) (bs : Bytes) : Moves s (s.endWrite bs) := by
  unfold State.endWrite
  split
  · exact Moves.hostFault s _
  · exact Moves.hostFault s _
  · exact Moves.takePacket s _ _ _

theorem Moves.rise (s : State) : Moves s s.rise := by
  unfold State.rise
  split
  · exact Moves.refl s
  · exact (Moves.setTransfer s _).trans (Moves.endWrite _ _)
  · refine Moves.of rfl rfl rfl rfl rfl (fun h => ?_)
    show QueueInv (if _ then _ else _)
    split
    · exact h.remove
    · exact h
  · exact (Moves.setTransfer s _).trans (Moves.hostFault _ _)

theorem Moves.setRise (s : State) (t : Transfer) : Moves s (s.setTransfer t).rise :=
  (Moves.setTransfer s t).trans (Moves.rise _)

theorem Moves.takeRead (s : State) : Moves s s.takeRead := by
  unfold State.takeRead
  split
  · exact Moves.setTransfer s _
  · exact Moves.refl s

theorem Moves.endRead (s : State) (n : Nat) : Moves s (s.endRead n) := by
  unfold State.endRead
  split
  · exact Moves.setRise s _
  · exact Moves.refl s

theorem Moves.endIgnored (s : State) (b : Byte) : Moves s (s.endIgnored b) := by
  unfold State.endIgnored
  split
  · exact Moves.setRise s _
  · exact Moves.rise s
  · exact Moves.refl s

theorem Moves.endCollected (s : State) (bs : Bytes) : Moves s (s.endCollected bs) := by
  unfold State.endCollected
  split
  · exact Moves.setRise s _
  · split
    · exact Moves.setRise s _
    · exact Moves.refl s
  · exact Moves.refl s

theorem Moves.endPacket (s : State) (ch : BitVec 2) (k : BitVec 6) (p : Bytes) : Moves s (s.endPacket ch k p) := by
  unfold State.endPacket
  split
  · exact Moves.takePacket s _ _ _
  · split
    · exact (Moves.setTransfer s _).trans (Moves.takePacket _ _ _ _)
    · exact Moves.refl s
  · exact Moves.refl s

theorem Moves.completeTransmission (s : State) (l : Surface) : Moves s (s.completeTransmission l) := by
  unfold State.completeTransmission
  split
  · dsimp only
    split
    · exact Moves.setLink s l _
    · exact (Moves.setLink s l _).trans (Moves.setLink _ l _)
  · exact Moves.refl s

theorem Moves.pressButton (s : State) : Moves s s.pressButton := by
  unfold State.pressButton
  split
  · exact ((Moves.lookups _ _ s).trans (Moves.withGesture _ _)).trans (Moves.offer _ _)
  · exact Moves.refl s

theorem Moves.releaseButton (s : State) : Moves s s.releaseButton := by
  unfold State.releaseButton
  split
  · exact (Moves.withGesture s _).trans (Moves.offer _ _)
  · exact Moves.refl s

/-- Every command's own effect but the births and the completions of frames. -/
theorem effectOf_moves (c : Instr) (hb : ∀ w, c ≠ .slotRequest w) (hs : ∀ f, c ≠ .senseFrameCompletion f)
    (hp : c ≠ .penFrameCompletion) (s : State) : Moves s (effectOf c s) := by
  cases c
  case slotRequest w => exact absurd rfl (hb w)
  case senseFrameCompletion f => exact absurd rfl (hs f)
  case penFrameCompletion => exact absurd rfl hp
  case senseFrame l bs => exact Moves.packetArrives s l bs
  case penFrame l bs => exact Moves.packetArrives s l bs
  case scanAck l bs => exact Moves.packetArrives s l bs
  case wake l bs => exact Moves.packetArrives s l bs
  case idReply l bs => exact Moves.packetArrives s l bs
  case passUp l bs => exact Moves.packetArrives s l bs
  case stallWatchExpiry l =>
    dsimp only [effectOf]
    split
    · exact Moves.enterStalled s l _
    · exact Moves.refl s
  case identityReplyTimeout l =>
    dsimp only [effectOf, State.expireQuery]
    split
    · exact (Moves.setLink s l _).trans (Moves.linkTimeout _ _ _)
    · exact Moves.refl s
  case scanSettleTimeout l =>
    dsimp only [effectOf, State.expireSettle]
    split
    · exact (Moves.setLink s l _).trans (Moves.linkTimeout _ _ _)
    · exact Moves.refl s
  case transmissionComplete l => exact Moves.completeTransmission s l
  case lingerExpiry =>
    dsimp only [effectOf, State.expireLinger]
    split
    · exact Moves.ofPen rfl (fun _ => PenInv.absent s.pen) rfl rfl rfl rfl id
    · exact Moves.refl s
  case keyact => exact (Moves.withPalm s _).trans (Moves.consultPosture _)
  case typingGuardExpiry => exact Moves.withPalm s _
  case btnPress => exact Moves.pressButton s
  case btnRelease => exact Moves.releaseButton s
  case autoIdleExpiry =>
    dsimp only [effectOf, State.expireAutoIdle]
    split
    · exact Moves.beginScan s _ _
    · exact Moves.refl s
  case wakeDwellExpiry => exact Moves.withMode s _
  case copyEnd t => exact Moves.endCopy s t
  case verifyPassEnd => exact Moves.endVerify s
  case loadStepTimeout => exact Moves.loadTimeout s
  case readTransferTaken => exact Moves.takeRead s
  case readTransferEnd n => exact Moves.endRead s n
  case ignoredTransfer b => exact Moves.endIgnored s b
  case discardedWriteTransfer bs => exact Moves.endCollected s bs
  all_goals first | exact Moves.endPacket s _ _ _ | exact Moves.refl s

/-! ## Takes, births and completions -/

theorem takeSense_keeps (s : State) (f : Surface) : Keeps s (s.takeSense f) := by
  unfold State.takeSense
  split
  · rename_i fr _
    refine Keeps.trans (t := s.takenSense f fr) ?_ (Moves.evaluateEnables _ _).toKeeps
    have h := (Moves.readPosture s).trans (Moves.readActive _ .cls (s.postureRow.profileIndex f))
    exact ⟨(matchSlots_kept _ _ _ _).from, rfl, by cases f <;> exact id, by cases f <;> exact h.queue,
      fun hf => (h.faults hf).of (by cases f <;> rfl)⟩
  · exact Keeps.refl s

theorem takePen_keeps (s : State) : Keeps s s.takePen := by
  unfold State.takePen
  split
  · rename_i fr _
    refine Keeps.trans (t := s.takenPen fr) ?_ (Moves.evaluateEnables _ _).toKeeps
    have h := Moves.readPosture s
    exact ⟨SlotsFrom.refl _, rfl, fun hp => hp.of rfl rfl rfl rfl rfl rfl, h.queue, fun hf => (h.faults hf).of rfl⟩
  · exact Keeps.refl s

/-- Every at-once step but SOFT_RESET_EFFECT. -/
theorem perform_keeps (s : State) (d : Due) (hr : d ≠ .softReset) : Keeps s (s.perform d) := by
  by_cases hs : ∃ f, d = .senseTake f
  · obtain ⟨f, rfl⟩ := hs
    exact takeSense_keeps s f
  · by_cases hp : d = .penTake
    · subst hp
      exact takePen_keeps s
    · exact (perform_moves s d hr (fun f h => hs ⟨f, h⟩) hp).toKeeps

/-- A gesture step, seen from the blocks of `Moves`. -/
theorem GestureFrame.moves {f : Surface} {s t : State} (h : GestureFrame f s t) : Moves s t := by
  have hu : (t.unit f).op = (s.unit f).op := by rw [h.unit]
  have ho : (t.unit (otherSurface f)).op = (s.unit (otherSurface f)).op := by rw [h.other]
  obtain ⟨ns, h1, h2⟩ := h.reads
  have hr := Moves.afterReads .gesture (s.store.active .gesture) ns s
  have hk : Keeps s t :=
    ⟨h.slots.from, h.nextId, by rw [h.pen]; exact id, by rw [h2]; exact hr.queue, by rw [h1]; exact hr.faults⟩
  cases f
  · exact ⟨hk, h.holds, by rw [show t.pad.op = s.pad.op from hu], by rw [show t.panel.op = s.panel.op from ho],
      by rw [h.pen]⟩
  · exact ⟨hk, h.holds, by rw [show t.pad.op = s.pad.op from ho], by rw [show t.panel.op = s.panel.op from hu],
      by rw [h.pen]⟩

/-- Stages 4 to 8 and the offer of the frame's records. -/
theorem stages_moves (s : State) (f : Surface) (op : SenseOp) (g : List Offer) :
    Moves s (((s.stagesToSeven f op).1.stageEight f op).offer g) := by
  refine Moves.trans (t := s.setSlots (stagesFourToSix f op s.tracks.slots)) ?_ ?_
  · exact ⟨⟨(stagesFourToSix_kept f op s.tracks.slots).from, rfl, id, id, id⟩, rfl, rfl, rfl, rfl⟩
  · have h : GestureFrame f (s.setSlots (stagesFourToSix f op s.tracks.slots)) (s.stagesToSeven f op).1 :=
      gestureStep_frame _ _ _ _ _ _
    generalize (s.stagesToSeven f op).1 = u at h
    refine h.moves.trans (Moves.trans ?_ (Moves.offer _ g))
    cases f
    · exact Moves.withGesture u _
    · exact ⟨⟨(onTracks_kept Track.reported_keeps .panel _).from, rfl, id, id, id⟩, rfl, rfl, rfl, rfl⟩

theorem reportSense_moves (s : State) (op : SenseOp) : Moves s (s.reportSense op) := by
  unfold State.reportSense
  split
  · exact Moves.refl s
  · exact Moves.reportReturn s

theorem releaseSense_keeps (s : State) (f : Surface) (op : SenseOp) : Keeps s (s.releaseSense f op) := by
  cases f <;> exact ⟨releaseSlots_from _ _, rfl, id, id, fun h => h.of rfl⟩

theorem completeSense_keeps (s : State) (f : Surface) : Keeps s (s.completeSense f) := by
  unfold State.completeSense
  split
  · split
    · exact ((stages_moves s f _ _).toKeeps.trans (releaseSense_keeps _ _ _)).trans (reportSense_moves _ _).toKeeps
    · exact Keeps.refl s
  · exact Keeps.refl s

/-- A pen frame's evaluation, but for the Pen Record. -/
theorem penEvaluate_keeps (s : State) (op : PenOp) (hp : PenInv s.pen → PenInv (s.penEvaluate op).pen) :
    Moves s (s.penEvaluate op) := by
  have hl := Moves.afterReads .pen (s.store.active .pen) allPens s
  have ho : (s.penEvaluate op).pen.op = s.pen.op := by
    unfold State.penEvaluate
    split
    · dsimp only
      split <;> rfl
    · rfl
    · dsimp only
      split <;> rfl
    · rfl
    · dsimp only [PenUnit.left]
      split
      · split <;> rfl
      · rfl
    · rfl
  revert hp ho
  unfold State.penEvaluate
  split
  · exact fun hp ho => Moves.ofPen rfl hp ho rfl rfl rfl id
  · intro hp ho
    exact ⟨⟨hl.slots, hl.nextId, hp, hl.queue, hl.faults⟩, hl.holds, hl.padOp, hl.panelOp, by rw [ho]⟩
  · exact fun hp ho => Moves.ofPen rfl hp ho rfl rfl rfl id
  · exact fun hp ho => Moves.ofPen rfl hp ho rfl rfl rfl id
  · exact fun hp ho => Moves.ofPen rfl hp ho rfl rfl rfl id
  · exact fun hp ho => Moves.ofPen rfl hp ho rfl rfl rfl id

theorem PenUnit.near_cases {p : PenUnit} (h : p.near = true) : p.state = .hover ∨ p.state = .ink := by
  simpa [PenUnit.near] using h

/-- Only the last three rules of a pen frame leave a near pen's state to R56 as it stood. -/
theorem PenUnit.near_of_action {p : PenUnit} {op : PenOp} (h : p.action op = .conflict ∨ p.action op = .leaves) :
    p.near = true := by
  unfold PenUnit.action at h
  cases hn : p.near with
  | true => rfl
  | false =>
    simp only [hn] at h
    split at h
    · simp at h
    · split at h <;> simp at h

theorem PenInv.ofNear {p : PenUnit} (h : p.state = .ink ∨ p.state = .hover) (h1 : p.followed.isSome)
    (h2 : p.lastSample.isSome) (h3 : p.linger = none) : PenInv p := by
  unfold PenInv
  rcases h with h | h <;> rw [h] <;> exact ⟨h1, h2, h3⟩

theorem PenInv.acted (p : PenUnit) (f : PenFrame) (w : Followed) : PenInv (p.acted f w) := by
  refine PenInv.ofNear ?_ rfl rfl rfl
  show penStateFor f w.profile = .ink ∨ penStateFor f w.profile = .hover
  unfold penStateFor
  split <;> simp

theorem PenInv.left {p : PenUnit} (h : PenInv p) (hn : p.near = true) : PenInv p.left := by
  unfold PenUnit.left
  split
  · rename_i w hw
    split
    · rename_i hg
      have hl : p.lastSample.isSome := by
        unfold PenInv at h
        rcases PenUnit.near_cases hn with hs | hs <;> (rw [hs] at h; exact h.2.1)
      exact ⟨by rw [hw]; rfl, hl, rfl, hg.1⟩
    · exact PenInv.absent p
  · exact PenInv.absent p

theorem PenInv.evaluate (s : State) (op : PenOp) (h : PenInv s.pen) : PenInv (s.penEvaluate op).pen := by
  unfold State.penEvaluate
  split
  · dsimp only
    split
    · exact h
    · exact PenInv.absent _
  · exact (PenInv.acted s.pen op.frame _).of rfl rfl rfl rfl rfl rfl
  · dsimp only
    split
    · exact PenInv.acted _ _ _
    · exact h
  · rename_i ha
    rcases PenUnit.near_cases (PenUnit.near_of_action (.inl ha)) with hs | hs <;>
      (unfold PenInv at h ⊢; rw [hs] at h; dsimp only; rw [hs]; exact h)
  · rename_i ha
    exact h.left (PenUnit.near_of_action (.inr ha))
  · exact h

theorem reportPen_moves (s : State) (op : PenOp) : Moves s (s.reportPen op) := by
  unfold State.reportPen
  split
  · exact Moves.reportReturn s
  · exact Moves.refl s

theorem releasePen_keeps (s : State) : Keeps s s.releasePen :=
  ⟨SlotsFrom.refl _, rfl, fun h => h.of rfl rfl rfl rfl rfl rfl, id, fun h => h.of rfl⟩

theorem completePen_keeps (s : State) : Keeps s s.completePen := by
  unfold State.completePen
  split
  · rename_i op _
    exact (((penEvaluate_keeps s op (PenInv.evaluate s op)).trans (Moves.offer _ _)).trans
      (reportPen_moves _ _)).toKeeps.trans (releasePen_keeps _)
  · exact Keeps.refl s

/-- Every command's own effect but the births of tracks. -/
theorem effectOf_keeps (c : Instr) (hb : ∀ w, c ≠ .slotRequest w) (s : State) : Keeps s (effectOf c s) := by
  by_cases hs : ∃ f, c = .senseFrameCompletion f
  · obtain ⟨f, rfl⟩ := hs
    exact completeSense_keeps s f
  · by_cases hp : c = .penFrameCompletion
    · subst hp
      exact completePen_keeps s
    · exact (effectOf_moves c hb (fun f h => hs ⟨f, h⟩) hp s).toKeeps

/-- An answer of the allocator, but for the tracks. -/
theorem allocate_keeps (s : State) (who : Requesters) :
    (QueueInv s.queue → QueueInv (s.allocate who).queue) ∧ (FaultsInv s.store → FaultsInv (s.allocate who).store) ∧
      (s.allocate who).pen = s.pen ∧ (s.allocate who).store.holds = s.store.holds ∧
      (s.allocate who).pad.op.isSome = s.pad.op.isSome ∧ (s.allocate who).panel.op.isSome = s.panel.op.isSome := by
  unfold State.allocate
  split
  · rename_i f _
    unfold State.answerSlot
    split
    · rename_i op hop
      split
      · split
        · have h := Moves.afterReads .zone (s.store.active .zone) (pageRows op.posture) s
          cases f
          · have hop : s.pad.op = some op := hop
            exact ⟨h.queue, h.faults, by simp [State.grantSlot, State.afterLookup], h.holds, by rw [hop]; rfl,
              by simp [State.grantSlot, State.afterLookup, State.setUnit]⟩
          · have hop : s.panel.op = some op := hop
            exact ⟨h.queue, h.faults, by simp [State.grantSlot, State.afterLookup], h.holds,
              by simp [State.grantSlot, State.afterLookup, State.setUnit], by rw [hop]; rfl⟩
        · cases f
          · have hop : s.pad.op = some op := hop
            exact ⟨id, id, rfl, rfl, by rw [hop]; rfl, rfl⟩
          · have hop : s.panel.op = some op := hop
            exact ⟨id, id, rfl, rfl, rfl, by rw [hop]; rfl⟩
      · exact ⟨id, id, rfl, rfl, rfl, rfl⟩
    · exact ⟨id, id, rfl, rfl, rfl, rfl⟩
  · exact ⟨id, id, rfl, rfl, rfl, rfl⟩

end Sys2Proof.Machine
end

