-- ==== Sys2Proof/Laws/Wire.lean ====
section
/-! SUPPORT. A packet built for a channel, a kind and a payload is well framed and carries them (R1, 11.2). -/

namespace Sys2Proof.Machine

theorem packetBytes_length (c : BitVec 2) (k : BitVec 6) (p : Bytes) : (packetBytes c k p).length = p.length + 3 := by
  simp [packetBytes]

theorem u8At_packetBytes (c : BitVec 2) (k : BitVec 6) {p : Bytes} (h : p.length ≤ 255) :
    u8At (packetBytes c k p) 1 = p.length := by
  simp only [u8At, byteAt, packetBytes, List.cons_append, List.getD_cons_succ, List.getD_cons_zero, BitVec.toNat_ofNat]
  exact Nat.mod_eq_of_lt (by omega)

theorem kindOf_packetBytes (c : BitVec 2) (k : BitVec 6) (p : Bytes) : kindOf (packetBytes c k p) = k :=
  BitVec.extractLsb'_append_eq_right

theorem channelOf_packetBytes (c : BitVec 2) (k : BitVec 6) (p : Bytes) : channelOf (packetBytes c k p) = c :=
  BitVec.extractLsb'_append_eq_left

theorem payloadOf_packetBytes (c : BitVec 2) (k : BitVec 6) {p : Bytes} (h : p.length ≤ 255) :
    payloadOf (packetBytes c k p) = p := by
  unfold payloadOf
  rw [u8At_packetBytes c k h]
  simp [packetBytes]

theorem wellFramed_packetBytes (c : BitVec 2) (k : BitVec 6) {p : Bytes} (h : p.length ≤ 255) :
    wellFramed (packetBytes c k p) = true := by
  have hl := packetBytes_length c k p
  unfold wellFramed lengthOk crcOk
  rw [u8At_packetBytes c k h, hl]
  simp [packetBytes, byteAt]

theorem carries_packetBytes (c : BitVec 2) (k : BitVec 6) {p : Bytes} (h : p.length ≤ 255) :
    Carries (packetBytes c k p) k p :=
  ⟨wellFramed_packetBytes c k h, kindOf_packetBytes c k p, payloadOf_packetBytes c k h⟩

theorem u8At_append {a b : Bytes} {i : Nat} (h : i < a.length) : u8At (a ++ b) i = u8At a i := by
  simp [u8At, byteAt, List.getD_eq_getElem?_getD, List.getElem?_append_left h]

/-- R165's judgement of a good packet, with or without fill after it: it is taken with its header and payload. -/
theorem judgeWrite_packetBytes (c : BitVec 2) (k : BitVec 6) {p : Bytes} (h : p.length ≤ 255) (fill : Bytes) :
    judgeWrite (packetBytes c k p ++ fill) = .taken c k p := by
  have hl := packetBytes_length c k p
  have h1 : u8At (packetBytes c k p ++ fill) 1 = p.length := by rw [u8At_append (by omega), u8At_packetBytes c k h]
  have hc : crcOk (packetBytes c k p ++ fill) = true := by
    have hw := wellFramed_packetBytes c k h
    simp only [wellFramed, Bool.and_eq_true, crcOk, u8At_packetBytes c k h] at hw
    simp only [crcOk, h1, List.take_append_of_le_length (show p.length + 2 ≤ (packetBytes c k p).length by omega), byteAt,
      List.getD_eq_getElem?_getD, List.getElem?_append_left (show p.length + 2 < (packetBytes c k p).length by omega)]
    simpa [byteAt, List.getD_eq_getElem?_getD] using hw.2
  have hh : channelOf (packetBytes c k p ++ fill) = c := channelOf_packetBytes c k p
  have hk : kindOf (packetBytes c k p ++ fill) = k := kindOf_packetBytes c k p
  have hp : payloadOf (packetBytes c k p ++ fill) = p := by
    have h2 := payloadOf_packetBytes c k h
    simp only [payloadOf, h1, u8At_packetBytes c k h] at h2 ⊢
    rw [List.drop_append_of_le_length (by omega), List.take_append_of_le_length (by simp; omega), h2]
  rw [judgeWrite, if_neg, if_pos hc, hh, hk, hp]
  simp only [h1, List.length_append, hl]
  omega

/-- A whole write transfer of a good packet, with or without fill, takes the packet (R164 to R166). -/
theorem transfer_packet (s : State) (c : BitVec 2) (k : BitVec 6) {p : Bytes} (h : p.length ≤ 255) (fill : Bytes) :
    s.transfer writeCode (packetBytes c k p ++ fill) = (s.setTransfer .none).takePacket c k p := by
  have h' : s.transfer writeCode (packetBytes c k p ++ fill) =
      (s.setTransfer .none).endWrite (packetBytes c k p ++ fill) := rfl
  rw [h', State.endWrite, judgeWrite_packetBytes c k h]

end Sys2Proof.Machine
end

