-- ==== Sys2Proof/Tests/Slice0.lean ====
section
/-! SUPPORT. The model's own tests: the checks of `Instr.wf`, worked values of the formats, and for each statement with
hypotheses a state and operands that meet them, clause by clause, at the ends of the ranges. -/

namespace Sys2Proof.Tests

open Machine

set_option Elab.async false

/-! ## Small states -/

/-- A link in UP, commanded to FULL. -/
def upLink : Link := { Link.reset with state := .up, commanded := .full }

/-- The part in settled ACTIVE with both links UP. -/
def awake : State :=
  { State.reset with mode := { ModeEngine.reset with mode := .active }, padLink := upLink, panelLink := upLink }

/-- A state with that many records queued. -/
def filled (n : Nat) (s : State) : State :=
  { s with queue := { s.queue with records := List.replicate n (.event (.wake .pad)) } }

/-- A state with a response waiting for room. -/
def responseWaits (s : State) : State :=
  { s with queue := { s.queue with waiting := some { kind := 1#6, status := .done, result := [] } },
           command := { s.command with slot := some 1#6 } }

/-- A state with a COMMIT in progress that waits for a frame in progress. -/
def commitPends (s : State) : State :=
  { s with command := { s.command with slot := some Command.commit.code },
           store := { s.store with commit := some [.pen], holds := 1 } }

/-- A state with the port in a form. -/
def withTransfer (p : Transfer) (s : State) : State := { s with port := { s.port with transfer := p } }

/-- A state in a mode, with a transition. -/
def inMode (m : Mode) (t : Option Transition) (s : State) : State := { s with mode := { s.mode with mode := m, transition := t } }

/-- A state with a pad link. -/
def withPad (l : Link) (s : State) : State := { s with padLink := l }

/-- A state with one table's staging status. -/
def withStatus (t : Table) (v : Staging) (s : State) : State := { s with store := s.store.setStatus t v }

/-- A state with one stored row. -/
def withRow (t : Table) (k : Bank) (n : Nat) (r : StoredRow) (s : State) : State :=
  { s with store := s.store.writeRow t k n r }

/-- A candidate at a position. -/
def spot (x y : Nat) : Candidate := { x := x, y := y, area := 10, peak := 100, major := 3, minor := 2 }

/-- A track of a surface at the origin. -/
def trackOf (f : Surface) (st : TrackState) : Track :=
  { surface := f, id := 1, state := st, x := 0, y := 0, area := 10, major := 3, age := 0, matched := 1, missed := 0,
    birthZone := .none, lastX := 0, lastY := 0, member := false, matchedNow := false, bornNow := false, due := [],
    endMark := false }

/-- A member entry in slot 0 at the origin. -/
def memberAt (ended : Bool) : Member :=
  { slot := 0, startX := 0, startY := 0, lastX := 0, lastY := 0, excursion := 0, birthZone := .none, ended := ended,
    endedNow := ended }

/-- A gesture rule of a kind for one finger on the pad. -/
def ruleFor (k : Option GestureKind) (a : GestureAction) (consume : Bool) : GestureRule :=
  { enabled := true, surface := some .pad, fingers := 1, kind := k, action := a, edge := false, consume := consume,
    distance := 10, timeMin := 0, timeMax := 0, code := 7 }

/-- A context in a state with one member and a winner. -/
def contextIn (st : ContextState) (m : Member) (r : GestureRule) : Context :=
  { Context.closed with state := st, members := [m], winner := some { row := 0, rule := r } }

/-- A profile with thresholds at their largest. -/
def loose : Profile :=
  { matchRadius := 88, confirm := 2, missLimit := 2, palmArea := 255, palmLength := 255, guardArea := 255, neighbour := 5,
    gain := 256 }

/-- A sense operation with candidates waiting. -/
def opWith (cs : List Candidate) : SenseOp :=
  { frame := { time := 5#16, candidates := cs }, tally := 0, posture := 0, gather := 3, profile := loose,
    guard := PenGuard.reset, typing := false, retroDue := false, inkDue := false, waiting := cs, discards := 0 }

/-- A state with a pad operation. -/
def padOp (op : SenseOp) (s : State) : State := { s with pad := { s.pad with op := some op } }

/-- A pen sample. -/
def sample : PenSample :=
  { time := 9#16, x := 100, y := 100, pressure := 50, tiltX := 0#8, tiltY := 0#8, barrel := false, eraser := false, hover := 3 }

/-- A pen frame of a serial. -/
def penSeen (serial : Word) (inRange : Bool) : PenFrame :=
  { serial := serial, inRange := inRange, tip := false, sample := sample }

/-- A followed pen with serial 1 and a linger time. -/
def followedPen (linger : Nat) : Followed :=
  { serial := 1#32, profile := { fallbackProfile with linger := linger }, source := .fallback }

/-- A state with the pen in a state, followed, and a frame in progress. -/
def penIn (st : PenState) (guard : Bool) (op : Option PenOp) (s : State) : State :=
  { s with pen := { s.pen with
      state := st, followed := some (followedPen 2), lastSample := some sample, op := op,
      guard := { s.pen.guard with active := guard } } }

/-- A SENSE_FRAME payload without candidates. -/
def emptyFrame : Bytes := [1#8, 0#8, 0#8]

/-- A SENSE_FRAME payload with one candidate at the pad's far corner and the largest peak. -/
def cornerFrame : Bytes := putU16 1 ++ putU8 1 ++ putU16 4095 ++ putU16 2559 ++ putU8 255 ++ putU16 4095 ++ [1#8, 1#8]

/-- A PEN_FRAME payload at the panel's far corner, with the largest pressure and the ends of the tilts. -/
def cornerPen : Bytes :=
  putU16 1 ++ putU32 1 ++ [3#8] ++ putU16 16383 ++ putU16 10239 ++ putU16 4095 ++ [196#8, 60#8, 255#8]

/-- The bytes of a packet on a link. -/
def onLink (l : Surface) (k : BitVec 6) (p : Bytes) : Bytes := packetBytes (linkChannel l) k p

/-! ## The checks of Instr.wf -/

/-- A packet of one kind on the row of another is refused, on every packet row. -/
theorem test_wf_packet_rows :
    Instr.wf (.senseFrame .pad (onLink .pad kindWake [])) = false ∧
    Instr.wf (.penFrame .panel (onLink .panel kindWake [])) = false ∧
    Instr.wf (.scanAck .pad (onLink .pad kindWake [])) = false ∧
    Instr.wf (.wake .pad (onLink .pad kindIdReply [])) = false ∧
    Instr.wf (.idReply .pad (onLink .pad kindWake [])) = false ∧
    Instr.wf (.passUp .pad (onLink .pad kindWake [])) = false ∧
    Instr.wf (.wake .pad (onLink .pad kindWake [])) = true ∧ Instr.wf (.wake .pad []) = true := by decide +kernel

/-- A payload that no length byte spells, a command's kind on the row UNKNOWN, and transfers that are not faulty. -/
theorem test_wf_transfers :
    Instr.wf (.identify (List.replicate 256 0#8)) = false ∧ Instr.wf (.identify (List.replicate 255 0#8)) = true ∧
    Instr.wf (.passDown .pad 0x20#6 (List.replicate 256 0#8)) = false ∧
    Instr.wf (.unknown Command.identify.code []) = false ∧ Instr.wf (.unknown Command.softReset.code []) = false ∧ Instr.wf (.unknown 0x20#6 []) = true ∧
    Instr.wf (.ignoredTransfer writeCode) = false ∧ Instr.wf (.ignoredTransfer readCode) = false ∧
    Instr.wf (.discardedWriteTransfer (packetBytes 0#2 0x01#6 [])) = false ∧
    Instr.wf (.discardedWriteTransfer (packetBytes 3#2 0x01#6 [])) = true ∧
    Instr.wf (.discardedWriteTransfer [0#8]) = true := by decide +kernel

/-- No row of the table has bits, so no word spells a command. -/
theorem test_no_word_spells_a_command : decodeTableWord 8 0 = none ∧ State.reset.withFetchWord 8 0 = State.reset := ⟨rfl, rfl⟩

/-! ## Worked values -/

/-- The check codes of "123456789" are the published ones of the two generators. -/
theorem test_check_codes :
    crc8 [0x31#8, 0x32#8, 0x33#8, 0x34#8, 0x35#8, 0x36#8, 0x37#8, 0x38#8, 0x39#8] = 0xF4#8 ∧
    crc32Final (crc32Fold crc32Init [0x31#8, 0x32#8, 0x33#8, 0x34#8, 0x35#8, 0x36#8, 0x37#8, 0x38#8, 0x39#8]) =
      0xCBF43926#32 := by decide +kernel

/-! ## Witnesses: queue, steps and records -/

theorem test_meets_StepRunsFrontCommand :
    (State.reset.withPending [.keyact]).pending = .keyact :: [] ∧
    step (State.reset.withPending [.keyact]) = exec .keyact State.reset := ⟨rfl, rfl⟩

/-- An empty queue: in reset; with a swap due; quiet with nothing waiting, and with a response waiting at 46 to 48; a WAKE in
settled DOZE, which finds the freed place at 47 and leaves one at 46. -/
theorem test_meets_EmptyQueueAndWaitingResponse :
    (awake.pending = [] ∧ { awake with inReset := true }.inReset = true) ∧
    ({ awake with store := { awake.store with commit := some [.pen] } }.nextDue ≠ none) ∧
    (Quiet awake ∧ awake.queue.waiting = none ∧ Quiet (responseWaits (filled 48 awake))) ∧
    (∀ n ∈ [46, 47, 48], (fun s : State => s.inReset = false ∧ s.nextDue = none ∧ s.queue.waiting.isSome = true ∧
        s.queue.records.length = n ∧ s.queue.reportMask.getLsbD (Event.wake .pad).kind = true ∧ s.mode.mode = .doze ∧
        s.mode.transition = none ∧ s.mode.setMode = none ∧ s.enabled .pad = true)
      (responseWaits (filled n (inMode .doze none awake)))) ∧
    Carries (onLink .pad kindWake []) kindWake [] := by decide +kernel

/-- R160: after two whole reads of a full queue the response that waits has room; an IDENTIFY finds it entered and runs. -/
theorem test_response_enters_after_the_removals :
    (match exec (.identify []) (responseWaits (filled 46 awake)) with
    | .next s => (s.queue.waiting.isSome, s.command.slot, (s.queue.records.drop 46).map (fun r => match r with
      | .response x => some x.status
      | _ => none))
    | _ => (true, none, [])) = (false, none, [some .done, some .done]) := by decide +kernel

theorem test_meets_EveryStepGoesOnAndResetHolds :
    { awake with inReset := true }.inReset = true ∧ resetRow .keyact = false := by decide +kernel

theorem test_meets_CommandsFollowWhatIsDue :
    (awake.inReset = false ∧ dueOf .keyact = none ∧ resetRow .keyact = false) ∧
    (dueOf .swap = some .swap ∧ awake.isDue .swap = false ∧
      { awake with store := { awake.store with commit := some [.pen] } }.isDue .swap = true) := by decide +kernel

/-- An event kept out by the mask, and one reported at 47 and at 48 records. -/
theorem test_meets_EventAndResponseEntry :
    ({ awake.queue with reportMask := 0#14 }.reportMask.getLsbD (Event.wake .pad).kind = false) ∧
    awake.queue.reportMask.getLsbD (Event.wake .pad).kind = true ∧
    (filled 47 awake).queue.records.length < 48 ∧ 48 ≤ (filled 48 awake).queue.records.length := by decide +kernel

/-- A stream out of resync at 39 and 40 records, and in resync at 32 and 33; a stream absorbed and one not. -/
theorem test_meets_DataRecordEntry :
    (awake.queue.resync .pad = none ∧ (filled 39 awake).queue.records.length < 40 ∧
      40 ≤ (filled 40 awake).queue.records.length) ∧
    ({ awake.queue with resyncPad := some 1 }.resync .pad = some 1 ∧ 32 < (filled 33 awake).queue.records.length ∧
      (filled 32 awake).queue.records.length ≤ 32) ∧
    (DataStream.pad ∈ [DataStream.pad] ∧ DataStream.pad ∉ [DataStream.pen]) := by decide +kernel

theorem test_meets_RestatedState :
    ((contextIn .active (memberAt false) (ruleFor (some .hold) .report false)).state = .active ∧
      (contextIn .active (memberAt false) (ruleFor (some .hold) .report false)).winner =
        some { row := 0, rule := ruleFor (some .hold) .report false }) ∧
    awake.pad.context.state ≠ .active := by decide +kernel

theorem test_meets_ReportQueueKept : QueueInv State.reset.queue ∧ ∃ t, step State.reset = .next t := ⟨by decide +kernel, _, rfl⟩

/-! ## Witnesses: sensor links -/

/-- A packet that fails framing on each packet row, and a well-framed one of each kind. -/
theorem test_meets_PacketsFramedAndSorted :
    (∀ c ∈ [Instr.senseFrame .pad [], .penFrame .panel [], .scanAck .pad [], .wake .pad [], .idReply .pad [], .passUp .pad []],
      (packetOf c).isSome = true) ∧ Quiet awake ∧ wellFramed [] = false ∧
    (∀ k ∈ [kindSenseFrame, kindPenFrame, kindScanAck, kindWake, kindIdReply, 0x3F#6],
      Carries (onLink .pad k []) k [] ∧ Carries (onLink .panel k []) k []) ∧ consumedKind 0x3F#6 = false ∧
    ((0x3F#6 ∉ [0x01#6, 0x02#6, 0x03#6, 0x04#6, 0x05#6]) ∧ (0x06#6 ∉ [0x01#6, 0x02#6, 0x03#6, 0x04#6, 0x05#6])) := by
  decide +kernel

/-- Frames at the largest values are accepted; one value more, or a byte less, is not. -/
theorem test_meets_FrameAndRowFormats :
    (parseSense .pad cornerFrame).isSome = true ∧ (parsePen cornerPen).isSome = true ∧
    parseSense .pad (cornerFrame.set 4 16#8) = none ∧ parsePen cornerPen.dropLast = none ∧
    parsePen (cornerPen.set 13 195#8) = none ∧ parsePen (cornerPen.set 14 61#8) = none := by decide +kernel

/-- The fields at the largest values; rows of each surface and of none, and a profile at both ends of its miss limit. -/
theorem test_meets_layouts :
    ((parseSense .pad cornerFrame).map (fun fr => fr.candidates.map (fun c => [c.x, c.y, c.area, c.peak, c.major, c.minor])) =
        some [[4095, 2559, 255, 4095, 1, 1]] ∧
      (parsePen cornerPen).map (fun fr => [fr.sample.x, fr.sample.pressure, fr.sample.hover]) = some [16383, 4095, 255]) ∧
    ((zoneOf [1#8, 0#8]).surface = some .pad ∧ (ruleOf [0#8, 1#8]).surface = some .panel ∧ (zoneOf [1#8, 2#8]).surface = none ∧
      (profileOf (List.replicate 4 5#8)).missLimit = 4 ∧ (profileOf []).missLimit = 1) := by decide +kernel

/-- A frame that is discarded, by the mode and by a scan change, and one that is not. -/
theorem test_meets_SenseFrameArrival :
    Quiet awake ∧ Carries (onLink .pad kindSenseFrame emptyFrame) kindSenseFrame emptyFrame ∧
    parseSense .pad emptyFrame = some { time := 1#16, candidates := [] } ∧
    awake.mode.mode = .active ∧ awake.heading .sleep = false ∧ awake.heading .doze = false ∧
    awake.padLink.scanChange = false ∧ awake.postureRow.enables.of .pad = true ∧
    (Quiet State.reset ∧ State.reset.mode.mode = .sleep) ∧
    Quiet (withPad { upLink with scanChange := true } awake) := by decide +kernel

theorem test_meets_PenFrameArrival :
    Quiet awake ∧ Carries (onLink .panel kindPenFrame cornerPen) kindPenFrame cornerPen ∧
    (parsePen cornerPen).isSome = true ∧ awake.panelLink.scanChange = false ∧
    State.reset.mode.mode = .sleep := by decide +kernel

/-- SCAN_ACK of the commanded setting, of another and of none; WAKE in settled DOZE and not; ID_REPLY with a query and
without. -/
theorem test_meets_ModeEnginePackets :
    (∀ n ∈ [0, 1, 2, 3, 4], Carries (onLink .pad kindScanAck (putU8 n)) kindScanAck (putU8 n)) ∧
    (Quiet (withPad { upLink with scanChange := true } awake) ∧ ackSetting (putU8 1) = some upLink.commanded ∧
      ackSetting (putU8 2) ≠ some upLink.commanded ∧ ackSetting (putU8 4) = none ∧ ackSetting [] = none) ∧
    (Quiet (inMode .doze none awake) ∧ (inMode .doze none awake).enabled .pad = true ∧ awake.mode.setMode = none ∧
      awake.mode.mode ≠ .doze) ∧
    (Carries (onLink .pad kindWake []) kindWake [] ∧ Carries (onLink .pad kindIdReply []) kindIdReply []) ∧
    (Quiet (withPad { upLink with query := some 20 } awake) ∧ awake.padLink.query = none) := by decide +kernel

/-- PASS_UP of 0 and of 253 to 255 bytes. -/
theorem test_carries_long_payloads : ∀ n ∈ [0, 253, 254, 255],
    Carries (onLink .pad 0x3F#6 (List.replicate n 0#8)) 0x3F#6 (List.replicate n 0#8) := by
  intro n hn
  refine carries_packetBytes _ _ ?_
  rw [List.length_replicate]
  revert n
  decide

/-- PASS_UP at 39 and 40 records; PASS_DOWN by each of its four tests. -/
theorem test_meets_PassUpAndPassDown :
    (Quiet (filled 39 awake) ∧ (filled 39 awake).queue.records.length < 40 ∧
      Quiet (filled 40 awake) ∧ 40 ≤ (filled 40 awake).queue.records.length) ∧
    (HostReady awake ∧ HostReady State.reset ∧ State.reset.padLink.state ≠ .up ∧ awake.padLink.state = .up ∧
      awake.padLink.passDown.length < 2) ∧
    HostReady (withPad { upLink with passDown := List.replicate 2 { kind := 0x20#6, payload := [] } } awake) ∧
    kindScanControl ≠ 0x20#6 ∧ kindIdQuery ≠ 0x20#6 := by decide +kernel

/-- With the payloads of `test_carries_long_payloads`; the codes of R177. -/
theorem test_meets_PassUpTooLongAndEventCodes :
    Quiet awake ∧ consumedKind 0x3F#6 = false ∧
    (linkCode .pad = 1 ∧ linkCode .panel = 2) ∧ allTables.map tableCode = [0, 1, 2, 3, 4] ∧
    (Record.payload (.event (.wake .pad))).head? = some 4#8 := by decide +kernel

/-- A link that stands STALLED and one that does not; each timer running and stopped, with SLEEP in flight and not. -/
theorem test_meets_LinkStallsAndTimeouts :
    (withPad { upLink with state := .stalled } awake).padLink.state = .stalled ∧ awake.padLink.state ≠ .stalled ∧
    awake.panelLink.state ≠ .stalled ∧
    (∀ s ∈ [awake, inMode .sleep (some { target := .sleep, phase := .wake, cause := .command }) awake],
      ∀ l ∈ [upLink, { upLink with watch := some 100, query := some 20, settle := some 20 }], Quiet (withPad l s)) ∧
    (awake.heading .sleep = false ∧
      (inMode .sleep (some { target := .sleep, phase := .wake, cause := .command }) awake).heading .sleep = true) := by
  decide +kernel

/-- Each choice of the arbiter, and a completion of each packet, with a SOFT_RESET due after it and not. -/
theorem test_meets_ArbiterAndTransmissions :
    ({ upLink with sending := some (.part .idQuery) }.sending ≠ none) ∧
    ({ upLink with partQueue := [PartPacket.idQuery] }.sending = none ∧ upLink.partQueue = [] ∧ upLink.passDown = [] ∧
      { upLink with passDown := [({ kind := 0x20#6, payload := [] } : HostPacket)] }.passDown =
        ({ kind := 0x20#6, payload := [] } : HostPacket) :: []) ∧
    (∀ x ∈ [Sending.part .idQuery, .part (.scanControl .full), .host { kind := 0x20#6, payload := [] }],
      Quiet (withPad { upLink with sending := some x, scanChange := true } awake)) ∧
    (awake.softResetDue = false ∧ { awake with command := { awake.command with softReset := true } }.softResetDue = true ∧
      Quiet { withPad { upLink with sending := some (.part .idQuery) } awake with
        command := { awake.command with softReset := true } }) := by decide +kernel

/-! ## Witnesses: frames, tracks and palms -/

/-- A waiting frame at an idle operation, on each surface. -/
theorem test_meets_SenseFrameTake :
    ∀ f ∈ [Surface.pad, Surface.panel], ∀ fr ∈ [({ time := 1#16, candidates := [spot 4 5] } : SenseFrame)],
      (awake.setUnit f { awake.unit f with slot := { frame := some fr, tally := 1 } }).inReset = false ∧
      ((awake.setUnit f { awake.unit f with slot := { frame := some fr, tally := 1 } }).unit f).op = none ∧
      ((awake.setUnit f { awake.unit f with slot := { frame := some fr, tally := 1 } }).unit f).slot.frame = some fr ∧
      (awake.setUnit f { awake.unit f with slot := { frame := some fr, tally := 1 } }).store.commit = none ∧
      ((awake.setUnit f { awake.unit f with slot := { frame := some fr, tally := 1 } }).unit f).forcedPending = false := by
  decide +kernel

/-- A candidate at the reach, one beyond it, and the first of two at one distance. -/
theorem test_meets_Matching :
    nearest 0 0 25 [spot 3 4] = some (0, 25) ∧ nearest 0 0 24 [spot 3 4] = none ∧
    nearest 0 0 25 [spot 4 4, spot 3 4, spot 4 3] = some (1, 25) ∧ [spot 4 4, spot 3 4, spot 4 3][1]? = some (spot 3 4) ∧
    (trackOf .pad .live).surface = .pad ∧ (trackOf .pad .live).surface ≠ .panel := by decide +kernel

/-- Ids at both ends of the pointer; one operation waiting, with a FREE slot and with none; both waiting; none waiting. -/
theorem test_meets_ContactIdsAndSlotRequest :
    (awake.tracks.slots.length = 20 ∧ freshId awake.tracks.slots 21 1 = 1 ∧ freshId awake.tracks.slots 21 255 = 255 ∧
      freshId (awake.tracks.slots.set 0 (some { trackOf .pad .live with id := 255 })) 21 255 = 1) ∧
    (Quiet (padOp (opWith [spot 4 5]) awake) ∧ (padOp (opWith [spot 4 5]) awake).served .pad = some .pad ∧
      awake.tracks.slots[0]? = some none) ∧
    (Quiet (padOp (opWith [spot 4 5]) (awake.setSlots (List.replicate 20 (some (trackOf .pad .live))))) ∧
      (∀ o ∈ (List.replicate 20 (some (trackOf .pad .live))), o ≠ none)) ∧
    ((padOp (opWith [spot 4 5]) { awake with panel := { awake.panel with op := some (opWith [spot 4 5]) } }).served .both =
      some .pad) ∧
    (Quiet awake ∧ awake.served .both = none) := by decide +kernel

/-- The palm test at its thresholds, one below them, at 0 and at 255; a track that fails it at birth and at stage 4. -/
theorem test_meets_PalmTest :
    palmFails { loose with palmArea := 40 } .none 40 3 = true ∧ palmFails { loose with palmArea := 40 } .none 39 3 = false ∧
    palmFails { loose with guardArea := 40 } .guard 40 3 = true ∧ palmFails { loose with palmLength := 3 } .none 10 3 = true ∧
    palmFails { loose with palmLength := 0 } .none 0 0 = true ∧ palmFails { loose with palmArea := 0 } .none 0 0 = true ∧
    palmFails { loose with guardArea := 0 } .guard 0 0 = true ∧ palmFails loose .none 254 254 = false ∧
    palmFails loose .none 255 0 = true ∧
    classify .pad { opWith [] with profile := { loose with palmArea := 0 } } .none [] (spot 4 5) = some .palm := by
  decide +kernel

/-- Each reason of birth classification, and none; the neighbour test at its radius. -/
theorem test_meets_BirthClassification :
    classify .pad (opWith []) .block [] (spot 3 4) = some .zone ∧
    classify .panel { opWith [] with guard := { PenGuard.reset with active := true, xMax := 3, yMax := 4 } } .none []
      (spot 3 4) = some .penGuard ∧
    classify .pad { opWith [] with typing := true } .none [] (spot 3 4) = some .typing ∧
    classify .pad (opWith []) .none [some (trackOf .pad (.held .palm))] (spot 3 4) = some .nearPalm ∧
    classify .pad (opWith []) .none [some (trackOf .pad (.held .palm))] (spot 4 4) = none := by decide +kernel

/-- A track in each state, held, confirmed and ended at the counts where the stages act. -/
theorem test_meets_TrackStages :
    (trackOf .panel .live).hold .palm = { trackOf .panel .live with state := .held .palm, due := [.cancel] } ∧
    ({ trackOf .pad .tentative with matched := 2 }.confirm loose).state = .live ∧
    ((trackOf .pad .tentative).confirm loose).state = .tentative ∧
    ({ trackOf .pad .live with missed := 1 }.ends loose).endMark = false ∧
    ({ trackOf .pad .live with missed := 2 }.ends loose).due = [.up] ∧
    ({ trackOf .pad .tentative with missed := 2, matched := 2 }.ends loose).due = [.down, .up] ∧
    ({ trackOf .pad .tentative with missed := 2 }.ends loose).due = [] ∧
    ({ trackOf .pad (.held .palm) with missed := 2 }.ends loose).endMark = true := by decide +kernel

/-- No entry, one record of 20 entries, and a second for the 21st. -/
theorem test_meets_ContactEntries :
    contactFrames 1#16 [] = [] ∧
    (contactFrames 1#16 (List.replicate 20 ((trackOf .panel .live).entry .move))).length = 1 ∧
    (contactFrames 1#16 (List.replicate 21 ((trackOf .panel .live).entry .move))).length = 2 ∧
    ({ trackOf .panel .live with x := 1 }.entries).length = 1 ∧ (trackOf .panel .live).entries = [] := by decide +kernel

/-- A pad frame in progress, answered and not. -/
theorem test_meets_SenseFrameCompletion :
    (Quiet (padOp (opWith []) awake) ∧ ((padOp (opWith []) awake).unit .pad).op = some (opWith [])) ∧
    (Quiet (padOp (opWith [spot 4 5]) awake) ∧ (opWith [spot 4 5]).waiting ≠ []) := by decide +kernel

/-- A request at an idle operation and at one in progress, and a pending one at an idle operation; a context with a winner
and without. -/
theorem test_meets_ForcedEnds :
    (awake.unit .pad).op = none ∧ ((padOp (opWith []) awake).unit .pad).op ≠ none ∧
    ({ awake with pad := { awake.pad with forcedPending := true } }.inReset = false) ∧
    (contextIn .active (memberAt false) (ruleFor none .report false)).state = .active ∧
    (Context.closed).state ≠ .active := by decide +kernel

theorem test_meets_HeldIsFinal :
    (awake.tracks.slots.set 0 (some (trackOf .pad (.held .palm)))).length = 20 ∧
    (awake.tracks.slots.set 0 (some (trackOf .pad (.held .palm))))[0]? = some (some (trackOf .pad (.held .palm))) ∧
    (trackOf .pad (.held .palm)).state = .held .palm ∧
    Quiet (awake.setSlots (awake.tracks.slots.set 0 (some (trackOf .pad (.held .palm))))) ∧
    { awake with pad := { awake.pad with forcedPending := true } }.isDue (.forcedEnd .pad) = true := by decide +kernel

theorem test_meets_TrackTableKept : TracksInv State.reset.tracks ∧ ∃ t, step State.reset = .next t := by
  refine ⟨⟨rfl, by decide, ?_, ?_⟩, _, rfl⟩
  · intro x hx
    have h : State.reset.tracks.slots = List.replicate 20 none := rfl
    rw [h] at hx
    simp at hx
  · intro i j x y hx
    have h : State.reset.tracks.slots = List.replicate 20 none := rfl
    rw [h, List.getElem?_replicate] at hx
    split at hx <;> simp at hx

/-! ## Witnesses: gestures and the pointer -/

/-- A context with an anchor, one without for a TAP, and a rule of each kind. -/
theorem test_meets_GestureRuleTests :
    [memberAt false] ≠ [] ∧ isqrt 24 = 4 ∧ isqrt 25 = 5 ∧
    { contextIn .candidate (memberAt false) (ruleFor none .report false) with
      anchor := some { x := 0, y := 0, spread := 0 } }.anchor = some { x := 0, y := 0, spread := 0 } ∧
    ((contextIn .gathering (memberAt true) (ruleFor none .report false)).anchor = none ∧
      (ruleFor (some .tap) .report false).kind = some .tap) ∧
    (∀ k ∈ [GestureKind.tap, .hold, .swipeLeft, .swipeRight, .swipeUp, .swipeDown, .pinchIn, .pinchOut],
      (ruleFor (some k) .report false).kind = some k) := by decide +kernel

/-- A closed and an open context, a remaining and an ended member, 4 and 5 members, and a context whose members have ended. -/
theorem test_meets_GestureClockAndMembers :
    Context.closed.state = .closed ∧ (contextIn .gathering (memberAt false) (ruleFor none .report false)).state ≠ .closed ∧
    ((memberAt true).ended = true ∧ (memberAt false).ended = false ∧
      (awake.tracks.slots.set 0 (some (trackOf .pad .live)))[(memberAt false).slot]? = some (some (trackOf .pad .live))) ∧
    { Context.closed with state := .gathering, members := List.replicate 4 (memberAt false) }.takes = true ∧
    { Context.closed with state := .gathering, members := List.replicate 5 (memberAt false) }.takes = false ∧
    ((awake.setContext .pad (contextIn .finishing (memberAt true) (ruleFor none .report false))).pad.context.state ≠ .closed ∧
      ∀ m ∈ (contextIn .finishing (memberAt true) (ruleFor none .report false)).members, m.ended = true) ∧
    (fun s : State => s.tracks.slots[5]? = some (some (trackOf .pad .live)) ∧
        ((s.gestureClose .pad 9#16).pad.context.state, (s.gestureClose .pad 9#16).pad.context.members.map Member.slot) =
          (.gathering, [0, 1, 2, 3, 4]))
      ((awake.setSlots (List.replicate 6 (some (trackOf .pad .live)))).setContext .pad
        (contextIn .finishing (memberAt true) (ruleFor none .report false))) := by decide +kernel

/-- No LIVE track of the pad stands in a table without tracks. -/
theorem test_no_stray_without_tracks : ∀ t, some t ∈ awake.tracks.slots → t.surface = .pad → t.state = .live →
    t.endMark = true ∨ t.member = true := by
  intro t ht
  have h : awake.tracks.slots = List.replicate 20 none := rfl
  rw [h] at ht
  simp at ht

/-- Rules of both sorts with each action; LIVE tracks of both surfaces with and without an UP due; a member lost and not;
as many remaining members as fingers and one fewer; a progress that changed and one that did not. -/
theorem test_meets_GestureWinsAndCancels :
    ((ruleFor (some .hold) .report true).kind ≠ some .tap ∧ (ruleFor (some .tap) .left false).action = .left ∧
      (ruleFor (some .tap) .right false).action = .right ∧ (ruleFor (some .tap) .middle false).action = .middle) ∧
    ((trackOf .pad .tentative).state ≠ .live ∧ (trackOf .pad .live).surface = .pad ∧ Phase.up ∉ (trackOf .panel .live).due ∧
      Phase.up ∈ { trackOf .panel .live with due := [.up] }.due) ∧
    ((contextIn .active (memberAt false) (ruleFor none .report false)).lostMember [0] = true ∧
      (contextIn .active (memberAt false) (ruleFor none .report false)).lostMember [1] = false) ∧
    ((contextIn .passive (memberAt false) (ruleFor none .report false)).state ≠ .active ∧
      ((memberAt true).endedNow = true ∧ { memberAt true with endedNow := false }.ended = true)) ∧
    ((contextIn .active (memberAt true) (ruleFor none .report false)).members.filter (fun m => !m.ended)).length < 1 ∧
    1 ≤ ((contextIn .active (memberAt false) (ruleFor none .report false)).members.filter (fun m => !m.ended)).length ∧
    ((ruleFor (some .hold) .report false).progress (contextIn .active (memberAt false) (ruleFor none .report false)) = 0 ∧
      (ruleFor (some .hold) .report false).progress
        { contextIn .active (memberAt false) (ruleFor none .report false) with elapsed := 10 } ≠ 0) := by decide +kernel

/-- The bytes of an enabled GESTURE row of a kind for one finger on the pad, with distance 10 and code 7. -/
def ruleBytes (kind : Nat) : Bytes :=
  [1#8, 0#8, 1#8, BitVec.ofNat 8 kind, 0#8, 10#8, 0#8, 0#8, 0#8, 7#8] ++ List.replicate 6 0#8

/-- A pad context in a state with one member, over two GESTURE rows: HOLD in row 3 and TAP in row 4. -/
def gathered (st : ContextState) (m : Member) (elapsed : Nat) (candidates : List Nat) : State :=
  (withRow .gesture .a 3 (StoredRow.fresh (ruleBytes 1)) (withRow .gesture .a 4 (StoredRow.fresh (ruleBytes 0)) awake)).setContext
    .pad { Context.closed with state := st, members := [m], elapsed := elapsed, candidates := candidates }

/-- Joiners for a CLOSED and for a GATHERING context; a gathering at its window with rows to select and with none, and before
it with a TAP row and with no row for the members that ended; a candidate set that is made anew, whose TAP row is struck off
by a member's excursion, whose HOLD row wins, and that empties. -/
theorem test_meets_GestureStepInOrder :
    (∀ c ∈ [Context.closed, contextIn .gathering (memberAt false) (ruleFor none .report false)],
      (((awake.setSlots [some { trackOf .pad .live with due := [.down] }]).setContext .pad c).gestureJoins .pad 9#16).pad.context.members
        ≠ c.members) ∧
    (((gathered .gathering (memberAt false) 30 []).gestureGather .pad 3).1.pad.context.candidates = [3, 4] ∧
      ((awake.setContext .pad (contextIn .gathering (memberAt false) (ruleFor none .report false))).gestureGather .pad 0).1.pad.context.state
        = .passive) ∧
    (((gathered .gathering (memberAt true) 29 []).gestureGather .pad 3).2.length = 1 ∧
      ((awake.setContext .pad (contextIn .gathering (memberAt true) (ruleFor none .report false))).gestureGather .pad 3).2 = []) ∧
    ((gathered .candidate (memberAt false) 30 [3, 4]).gestureEvaluate .pad).1.pad.context.state = .active ∧
    ((gathered .candidate { memberAt false with excursion := 100 } 30 [3, 4]).gestureEvaluate .pad).1.pad.context.state = .passive ∧
    ((gathered .candidate (memberAt false) 30 [4]).gestureEvaluate .pad).1.pad.context.candidates = [4] ∧
    (GestureRule.inert (ruleOf (ruleBytes 1)) = false ∧ GestureRule.inert (ruleOf (ruleBytes 8)) = true) := by decide +kernel

/-- The count at both bounds and one beyond each; a followed slot kept, changed, lost and none. -/
theorem test_meets_PointerMotion :
    axisMotion 2047 256 0 = (2047, 0) ∧ axisMotion 2048 256 0 = (2047, 256) ∧ axisMotion (-2048) 256 0 = (-2048, 0) ∧
    axisMotion (-2049) 256 0 = (-2048, -256) ∧ axisMotion (-1) 255 0 = (0, -255) ∧
    followedSlot (contextIn .gathering (memberAt false) (ruleFor none .report false)) [some (trackOf .pad .live)] = some 0 ∧
    followedSlot (contextIn .passive (memberAt false) (ruleFor none .report false)) [some (trackOf .pad .live)] = some 0 ∧
    followedSlot Context.closed [some (trackOf .pad .live)] = none := by decide +kernel

/-! ## Witnesses: the pen -/

theorem test_meets_PenFrameTake :
    (fun s : State => s.inReset = false ∧ s.pen.op = none ∧ s.pen.slot.frame = some (penSeen 1#32 true) ∧
      s.store.commit = none ∧ s.pen.dropPending = false)
      { awake with pen := { awake.pen with slot := { frame := some (penSeen 1#32 true), tally := 2 } } } := by
  decide +kernel

/-- A frame in progress for each case: the pen in each state, enabled and not, in range and not, the followed pen and
another, with a linger time and without, with a refresh due and without. -/
theorem test_meets_PenFrameCompletion :
    (Quiet awake ∧ awake.pen.op = none) ∧
    (∀ st ∈ [PenState.absent, .hover, .ink, .linger], ∀ guard ∈ [true, false], ∀ enabled ∈ [true, false],
      ∀ inRange ∈ [true, false],
      Quiet (penIn st guard (some { frame := penSeen 1#32 inRange, tally := 1, enabled := enabled }) awake)) ∧
    (0 < (followedPen 2).profile.linger ∧ (followedPen 0).profile.linger = 0) ∧
    ((penSeen 2#32 true).serial ≠ (followedPen 2).serial ∧ (penSeen 1#32 true).serial = (followedPen 2).serial) := by
  decide +kernel

/-- A PEN row that serves a serial, the row with serial 0 that serves any, and a bank of faulted rows that serves none; a
guard at its hover limit and one beyond it, for each hand. -/
theorem test_meets_PenLookupAndGuard :
    penSerialOf ((withRow .pen .a 1 (StoredRow.fresh ([5#8] ++ List.replicate 11 0#8)) awake).store.row .pen .a 1).bytes =
      5#32 ∧
    (awake.store.row .pen .a 0).integrity = .intact ∧ (awake.store.row .pen .a 0).inert = false ∧
    penSerialOf (awake.store.row .pen .a 0).bytes = 0#32 ∧
    (∀ n < 8, ({ awake.store with pen := { awake.store.pen with
      bankA := List.replicate 8 { bytes := [], inert := true, integrity := .intact } } }.row .pen .a n).inert = true) ∧
    (∀ h ∈ [Hand.left, .right],
      (guardFor PenGuard.reset .absent (penSeen 1#32 true) { fallbackProfile with hand := h, hoverLimit := 3, inkThreshold := 99 }).active
        = true ∧
      (guardFor PenGuard.reset .absent (penSeen 1#32 true) { fallbackProfile with hand := h, hoverLimit := 2, inkThreshold := 99 }).active
        = false) := by decide +kernel

/-- The pen in each state, its operation idle and not, a drop pending, and the linger timer running and stopped. -/
theorem test_meets_PenDropAndLinger :
    (∀ st ∈ [PenState.absent, .hover, .ink, .linger], (penIn st true none awake).pen.op = none ∧
      Quiet (penIn st true none awake)) ∧
    (penIn .hover true (some { frame := penSeen 1#32 true, tally := 0, enabled := true }) awake).pen.op ≠ none ∧
    { awake with pen := { awake.pen with dropPending := true } }.inReset = false ∧
    Quiet { awake with pen := { awake.pen with linger := some 20 } } := by decide +kernel

theorem test_meets_PenRecordKept : PenInv State.reset.pen ∧ ∃ t, step State.reset = .next t :=
  ⟨⟨rfl, rfl, rfl, rfl⟩, _, rfl⟩

theorem test_meets_FrameHoldsKept :
    (HoldsInv State.reset ∧ ∃ t, step State.reset = .next t) ∧
    HoldsInv { State.reset with store := { State.reset.store with commit := some [.pen] } } ∧
    { State.reset with store := { State.reset.store with commit := some [.pen] } }.isDue .swap = true :=
  ⟨⟨by decide +kernel, _, rfl⟩, by decide +kernel, by decide +kernel⟩

/-! ## Witnesses: zones, the lines, the enables and the modes -/

/-- A row of the page that contains a point at its low edge, the point at its high edge that it does not contain, and a
point no row contains. -/
theorem test_meets_ZoneLookup :
    (fun s : State => s.lookup .pad 1 1 0 = .block ∧ s.lookup .pad 2 1 0 = .none ∧ s.lookup .pad 0 1 0 = .none)
      (withRow .zone .a 23 (StoredRow.fresh ([1#8, 0#8] ++ putU16 1 ++ putU16 2 ++ putU16 1 ++ putU16 2 ++ [0#8, 0#8])) awake) ∧
    awake.lookup .pad 1 1 0 = .none := by decide +kernel

/-- The button free and pressed, the pad enabled and not, an empty click view and one with a position. -/
theorem test_meets_LineEvents :
    Quiet awake ∧ awake.command.enables.pad = true ∧ awake.gesture.button = .none ∧
    Quiet { awake with gesture := { awake.gesture with button := .left, clickView := [(1, 1)] } } ∧
    Quiet { awake with command := { awake.command with enables := { pad := false, panel := true, pen := true } } } ∧
    awake.postureRow.typingHold = 30 := by decide +kernel

/-- Enables that change each way, and settings that differ from the commanded one in each mode. -/
theorem test_meets_EnableAndScanChanges :
    awake.command.enables = { pad := true, panel := true, pen := true } ∧
    { pad := false, panel := false, pen := false } ≠ awake.command.enables ∧
    (awake.scanNeeded .pad = none ∧ (inMode .idle none awake).scanNeeded .pad = some .reduced ∧
      (inMode .doze none awake).scanNeeded .pad = some .wakeOnTouch ∧ State.reset.scanNeeded .pad = none ∧
      (inMode .waking none awake).scanNeeded .pad = none ∧
      (inMode .sleep (some { target := .sleep, phase := .scan, cause := .command }) awake).scanNeeded .pad = some .off) := by
  decide +kernel

/-- The auto-idle timer running and stopped; settled IDLE, a transition toward IDLE, and a mode in which a report is ignored. -/
theorem test_meets_AutomaticModeChanges :
    Quiet awake ∧ awake.mode.autoIdle = none ∧ Quiet { awake with mode := { awake.mode with autoIdle := some 3000 } } ∧
    ((inMode .idle none awake).mode.transition = none ∧ (inMode .idle none awake).mode.setMode = none ∧
      awake.mode.mode ≠ .idle) := by decide +kernel

/-- A WAKE phase with the replies in and with one missing, a pass that counted no row and one that counted some, toward
ACTIVE and toward DOZE. -/
theorem test_meets_WakePhaseEnd :
    ∀ target ∈ [Mode.active, .doze], ∀ outcome ∈ [WakeOutcome.replied, .notQueried, .noReply], ∀ n ∈ [0, 1],
      (fun s : State => s.inReset = false ∧ s.padLink.outcome ≠ .awaiting ∧ s.panelLink.outcome ≠ .awaiting ∧
        s.mode.wakeCount = some n ∧ s.nextDue = some .wakePhaseEnd)
        { inMode .waking (some { target := target, phase := .wake, cause := .command })
            (withPad { upLink with outcome := outcome } awake) with
          mode := { mode := .waking, transition := some { target := target, phase := .wake, cause := .command },
                    setMode := none, delay := 30, autoIdle := none, returnDue := false, dwell := none, toggle := false,
                    wakeCount := some n } } := by decide +kernel

/-- A SCAN phase over, with a SET_MODE that drives it, one that waits, one that waits for the dwell, and none. -/
theorem test_meets_TransitionComplete :
    ∀ c ∈ [none, some ({ target := .idle, delay := none, driving := true } : SetMode),
        some { target := .doze, delay := none, driving := false }, some { target := .sleep, delay := none, driving := false }],
      (fun s : State => s.inReset = false ∧ s.padLink.scanChange = false ∧ s.panelLink.scanChange = false ∧
        s.nextDue = some .transitionComplete)
        { awake with mode := { awake.mode with
            transition := some { target := .active, phase := .scan, cause := .auto }, setMode := c, dwell := some 50 } } := by
  decide +kernel

/-- SET_MODE of each code 0 to 4; its start from each settled mode. -/
theorem test_meets_SetModeTakenAndStarted :
    CommandReady awake ∧ (∀ n ∈ [0, 1, 2, 3, 4], (putU8 n ++ [1#8, 0#8]).length = 3) ∧
    (∀ m ∈ [Mode.active, .idle, .doze, .sleep], ∀ target ∈ [Mode.active, .doze, .sleep],
      (fun s : State => s.inReset = false ∧ s.mode.transition = none ∧ s.mode.dwell = none ∧ s.nextDue = some .setModeStart)
        { inMode m none awake with mode := { (inMode m none awake).mode with
            setMode := some { target := target, delay := some 0, driving := false } } }) ∧
    (awake.padLink.state = .up ∧ State.reset.padLink.state ≠ .up) := by decide +kernel

/-! ## Witnesses: the Table Store -/

/-- An open load of a table, with that many rows declared. -/
def loading (t : Table) (count : Option Nat) (cursor written : Nat) : State :=
  { awake with store := { awake.store.setStatus t .loading with
      load := some { table := t, first := cursor, count := count, cursor := cursor, written := written, crc := crc32Init,
                     timer := some 100 } } }

/-- LOAD_BEGIN by each of its tests and past them; LOAD_ROWS without a load, with a run too long for the count and for the
table, into a locked row and past the tests; LOAD_END short, with the wrong CRC and with the right one. -/
theorem test_meets_Loads :
    (CommandReady awake ∧ 5 ≤ u8At [5#8, 0#8, 0#8] 0) ∧
    (CommandReady (loading .pen none 0 0) ∧ (loading .pen none 0 0).store.load ≠ none) ∧
    (CommandReady (withStatus .pen .copying awake) ∧ (withStatus .pen .copying awake).store.status .pen = .copying) ∧
    (∃ i < 1, 1 + i < 96 ∧ (1 + i) % 24 < { awake.store with lock := 2 }.lock) ∧
    (tableRows .pen ≤ 8 ∧ 7 < tableRows .pen ∧ 7 + 1 ≤ tableRows .pen ∧ tableRows .pen < 7 + 2) ∧
    (CommandReady (loading .pen (some 1) 7 1) ∧ 1 < 1 + 12 / rowSize .pen ∧ tableRows .pen < 8 + 12 / rowSize .pen) ∧
    ((List.replicate 12 (0#8 : Byte)).length % rowSize .pen = 0 ∧ (List.replicate 13 (0#8 : Byte)).length % rowSize .pen ≠ 0) ∧
    (u32At (putU32 (crc32Final crc32Init).toNat) 0 = (crc32Final crc32Init).toNat ∧
      u32At (putU32 1) 0 ≠ (crc32Final crc32Init).toNat) ∧
    (Quiet (loading .pen none 0 0) ∧ Quiet awake ∧ awake.store.load = none) := by decide +kernel

/-- A row of each integrity, inert and not; a listed faulted row, an unlisted one with 7 entries and with 8. -/
theorem test_meets_StoredRows :
    (∀ n ∈ [7, 8], (fun s : State => (s.store.row .zone .b 3).integrity = .uncorrectable ∧
        ({ table := .zone, bank := .b, row := 3 } : FaultEntry) ∉ s.store.faults ∧ s.store.faults.length = n)
      { withRow .zone .b 3 { bytes := [], inert := false, integrity := .uncorrectable } awake with
        store := { (withRow .zone .b 3 { bytes := [], inert := false, integrity := .uncorrectable } awake).store with
          faults := List.replicate n { table := .pen, bank := .a, row := 0 } } }) ∧
    ((withRow .zone .b 95 (StoredRow.fresh []) awake).store.row .zone .b 95 = StoredRow.fresh [] ∧
      95 < ((awake.store.table .zone).bank .b).length) ∧
    ({ bytes := [], inert := true, integrity := .intact } : StoredRow).view .pen =
      { bytes := [], inert := true, condition := .inert } := by decide +kernel

/-- COMMIT and REVERT of no table, of all five and of 32; a table LOADING behind one that is EDITED; no table EDITED; the
swap with the holds at 0; a COPYING table at its end, alone in a REVERT and not; contexts that a changed rule reaches. -/
theorem test_meets_CommitSwapAndRevert :
    (tableSetOf 31 = [.posture, .zone, .cls, .gesture, .pen] ∧ badSet 0 = true ∧ badSet 31 = false ∧ badSet 32 = true) ∧
    (CommandReady (withStatus .posture .edited (withStatus .zone .loading awake)) ∧
      tableSetOf 3 = [.posture] ++ .zone :: []) ∧
    (CommandReady awake ∧ ∀ u ∈ tableSetOf 31, awake.store.status u = .clean) ∧
    ({ awake with store := { awake.store with commit := some [.pen], holds := 0 } }.inReset = false) ∧ [Table.pen].Nodup ∧
    (Quiet (withStatus .pen .copying awake) ∧ (withStatus .pen .copying awake).store.status .zone ≠ .copying) ∧
    ((awake.rule 0).inert = true ∧
      (contextIn .active (memberAt false) (ruleFor (some .hold) .report false)).winner =
        some { row := 0, rule := ruleFor (some .hold) .report false }) := by decide +kernel

/-- READ_ROWS of code 5, of bank code 2, of no row, of the limit and one beyond it, and of the last row; a staging bank
COPYING; VERIFY of a COPYING table and of none; a pass of each kind at its end. -/
theorem test_meets_ReadRowsAndVerify :
    CommandReady awake ∧ (∀ t ∈ allTables, 1 ≤ readLimit t) ∧
    (u8At [2#8, 1#8, 0#8, 12#8] 3 = readLimit .cls ∧ u8At [0#8, 0#8, 3#8, 1#8] 2 + 1 = tableRows .posture) ∧
    (CommandReady (withStatus .pen .copying awake) ∧ (withStatus .pen .copying awake).store.status .pen = .copying) ∧
    (Quiet { awake with store := { awake.store with verify := some (.command [.pen]) } } ∧
      Quiet { awake with store := { awake.store with verify := some .wake } } ∧ awake.store.verify = none) := by decide +kernel

/-! ## Witnesses: the Command Unit and the host link -/

/-- A busy slot and a SOFT_RESET taken, at 47 and 48 records; a read and an ignored transfer in progress; an unknown kind; a length refused. -/
theorem test_meets_CommandSlot :
    (∀ n ∈ [47, 48], HostReady { filled n awake with command := { awake.command with slot := some 1#6 } } ∧
      HostReady { filled n (withPad { upLink with sending := some (.part .idQuery) } awake) with
        command := { awake.command with softReset := true } }) ∧
    (∀ x ∈ [Transfer.read none true 0, .read (some (.event (.wake .pad))) false 2, .ignoring], Quiet (withTransfer x awake)) ∧
    (isCommandKind 0x20#6 = false ∧ isCommandKind Command.identify.code = true) ∧
    (controlOf (.identify [0#8]) = some (.identify, [0#8]) ∧ Command.identify.lengthOk [0#8] = false) := by decide +kernel

/-- A SET_POSTURE that finds the slot BUSY: with another command, with a SOFT_RESET taken beside a pending commit, with a COMMIT
that only waits for its answer to enter, and beside a pending commit at 48 records. -/
theorem test_meets_CommandSlot_posture_busy :
    (controlOf (.setPosture [1#8]) = some (.setPosture, [1#8]) ∧ Command.commit.code = 0x0C#6) ∧
    (HostReady { awake with command := { awake.command with slot := some 1#6 } } ∧
      (some 1#6 : Option (BitVec 6)) ≠ some 0x0C#6) ∧
    (fun s : State => HostReady s ∧ s.command.softReset = true)
      (withPad { upLink with sending := some (.part .idQuery) }
        (commitPends { awake with command := { awake.command with softReset := true } })) ∧
    (fun s : State => HostReady s ∧ s.command.slot = some 0x0C#6 ∧ s.store.commit = none ∧ s.queue.waiting.isSome = true)
      { responseWaits (filled 48 awake) with command := { awake.command with slot := some 0x0C#6 } } ∧
    (fun s : State => HostReady s ∧ s.command.slot = some 0x0C#6 ∧ s.store.commit.isSome = true ∧ s.queue.waiting = none ∧
        48 ≤ s.queue.records.length)
      (filled 48 (commitPends awake)) := by decide +kernel

/-- R48: with a commit pending and the slot FREE the select changes at once, the commit stays, and DONE enters. -/
theorem test_posture_is_not_held_back_by_a_commit :
    (match exec (.setPosture [2#8]) { commitPends awake with command := awake.command } with
    | .next s => (s.command.select, s.store.commit, s.queue.records.map (fun r => match r with
      | .response x => some x.status
      | _ => none))
    | _ => (0, none, [])) = (2, some [.pen], [some .done]) := by decide +kernel

/-- R169: with the COMMIT in the slot it is answered BUSY and the select stays; nothing waits, and at 48 records one more is lost. -/
theorem test_posture_finds_the_commit_in_the_slot :
    ∀ n ∈ [0, 47, 48], (match exec (.setPosture [2#8]) (filled n (commitPends awake)) with
    | .next s => (s.command.select, s.command.slot, s.queue.records.length, s.queue.waiting, s.queue.lost)
    | _ => (9, none, 0, none, 9)) = (0, some Command.commit.code, min 48 (n + 1), none, n / 48) := by decide +kernel

/-- A status with no fault entry and with 8, with a transition and a load and without; SET_POSTURE of 3 and 4; LOCK_ZONES of a value that is none of the six, with ZONE not CLEAN, below the lock and at it. -/
theorem test_meets_IdentityStatusPostureAndLock :
    CommandReady awake ∧ (u8At [3#8] 0 < 4 ∧ 4 ≤ u8At [4#8] 0) ∧
    (awake.mode.transition = none ∧ awake.store.load = none ∧ awake.store.faults.length ≤ 8 ∧
      (List.replicate 8 ({ table := .zone, bank := .b, row := 3 } : FaultEntry)).length ≤ 8 ∧
      (inMode .waking (some { target := .active, phase := .wake, cause := .command }) awake).mode.transition =
        some { target := .active, phase := .wake, cause := .command } ∧
      (loading .pen none 0 0).store.load.isSome = true) ∧
    (u8At [3#8] 0 ∉ [1, 2, 4, 8, 16, 24] ∧ u8At [24#8] 0 ∈ [1, 2, 4, 8, 16, 24]) ∧
    (CommandReady (withStatus .zone .edited awake) ∧ (withStatus .zone .edited awake).store.status .zone ≠ .clean) ∧
    (awake.store.status .zone = .clean ∧ u8At [1#8] 0 < { awake.store with lock := 2 }.lock ∧
      { awake.store with lock := 2 }.lock ≤ u8At [2#8] 0) := by decide +kernel

/-- Masks of all settings and of none with the bits beyond the settings set; a length refused; each reset. -/
theorem test_meets_SetNotices :
    CommandReady awake ∧ (putU16 0xFFFF ++ putU32 0xFFFFFFFF).length = 6 ∧
    (∀ i < 14, (0x3FFF#14).getLsbD i = (u16At (putU16 0xFFFF ++ putU32 0xFFFFFFFF) 0).testBit i) ∧
    (∀ i < 18, (0x3FFFF#18).getLsbD i = (u32At (putU16 0xFFFF ++ putU32 0xFFFFFFFF) 2).testBit i) ∧
    (∀ i < 14, (0#14).getLsbD i = (u16At (putU16 0xC000 ++ putU32 0xFFFC0000) 0).testBit i) ∧
    (∀ i < 18, (0#18).getLsbD i = (u32At (putU16 0xC000 ++ putU32 0xFFFC0000) 2).testBit i) ∧
    (HostReady { awake with command := { awake.command with slot := some 1#6 } }) ∧
    ({ awake with command := { awake.command with softReset := true } }.isDue .softReset = true) := by decide +kernel

/-- The attention settings tell the classes apart: PANEL's alone, and kind 5's alone. -/
theorem test_attention_settings_tell_the_classes_apart :
    (Record.draws 2#18 (.contactFrame 0#16 []) = true ∧ Record.draws 2#18 (.pointer 0 0 Button.none.buttons) = false ∧
      Record.draws 2#18 (.resync 1 (.panel 0#16 0 [])) = true ∧ Record.draws 2#18 (.resync 1 (.pen .absent none)) = false) ∧
    (Record.payload (.event (.wake .pad))).head? = some (BitVec.ofNat 8 (Event.wake .pad).kind) := by decide +kernel

theorem test_meets_ClearCounters : CommandReady awake := by decide +kernel

/-- A read of a record and of EMPTY, clocked out whole in one part and in two, and one byte short; MISO at a packet byte and
past the packet; an ignored byte; writes and ignored transfers found in progress. -/
theorem test_meets_HostTransfers :
    (HostReady awake ∧ HostReady (filled 1 awake)) ∧
    (∀ out ∈ [0, 2, 5], Quiet (withTransfer (.read (some (.event (.wake .pad))) true out) awake)) ∧
    ((readPacket (some (.event (.wake .pad)))).length = 5 ∧ (readPacket none)[2]?.isSome = true ∧ (readPacket none)[3]? = none ∧
      { awake.port with transfer := .read none true 0 }.miso = 0x00#8 ∧
      { awake.port with transfer := .read none true 3 }.miso = 0xFF#8 ∧ awake.port.miso = 0xFF#8) ∧
    (∀ x ∈ [Transfer.ignoring, .write [], .write [0x00#8], .write [0x00#8, 0x00#8, 0x00#8, 0xFF#8]], Quiet (withTransfer x awake)) ∧
    (0x00#8 ≠ writeCode ∧ 0x00#8 ≠ readCode) := by decide +kernel

/-- A short, a corrupt, an unused channel's and a good write; bytes of a write found in progress that agree with a packet, with
and without fill, and that do not; a row of each consumer, and a kind of none. -/
theorem test_meets_HostTransfers_writes :
    (judgeWrite [0#8] = .short ∧ judgeWrite [0#8, 0#8, 1#8] = .crc ∧ judgeWrite [0#8, 0#8, 0#8] = .taken 0#2 0#6 [] ∧
      channelOf (packetBytes 3#2 0#6 []) = 3#2) ∧
    (packetBytes 0#2 0x00#6 [] = [0x00#8, 0x00#8, 0x00#8] ∧
      (∀ got ∈ [([] : Bytes), [0x00#8], [0x00#8, 0x00#8, 0x00#8]], got.isPrefixOf (packetBytes 0#2 0x00#6 []) = true) ∧
      (packetBytes 0#2 0x00#6 []).isPrefixOf [0x00#8, 0x00#8, 0x00#8, 0xFF#8] = true ∧
      [0x01#8].isPrefixOf (packetBytes 0#2 0x00#6 []) = false) ∧
    (hostPacketOf (.unknown 0#6 []) = some (0#2, 0#6, []) ∧ hostPacketOf (.passDown .panel 0x20#6 []) = some (2#2, 0x20#6, []) ∧
      hostPacketOf (.softReset []) = some (0#2, Command.softReset.code, [])) ∧
    (∀ c ∈ Command.all, c.code ≠ 0x20#6) := by decide +kernel

/-- R166: the bytes of a good PASS_DOWN packet, with fill after it, reach the arbiter of the link its channel names. -/
theorem test_good_packet_goes_to_its_consumer :
    (match exec (.discardedWriteTransfer (packetBytes 1#2 0x20#6 [7#8] ++ [0xFF#8])) awake with
    | .next s => s.padLink.sending
    | _ => none) = some (.host { kind := 0x20#6, payload := [7#8] }) := by decide +kernel

/-! ## Witnesses: resets and invariants -/

/-- A SOFT_RESET taken with nothing in flight, and one that waits for a copy; in reset and out of it. -/
theorem test_meets_Resets :
    HostReady awake ∧
    ({ awake with command := { awake.command with softReset := true } }.isDue .softReset = true ∧
      { withStatus .pen .copying awake with command := { awake.command with softReset := true } }.isDue .softReset = false) ∧
    (∀ x ∈ [Transfer.none, .write [0x00#8], .read none true 1, .ignoring],
      (withTransfer x { awake with command := { awake.command with softReset := true } }).isDue .softReset = true) ∧
    ((∀ t ∈ allTables, awake.store.status t ≠ .copying) ∧ awake.padLink.sending = none ∧ awake.panelLink.sending = none) ∧
    { awake with inReset := true }.inReset = true ∧ awake.inReset = false := by decide +kernel

theorem test_meets_RowFaultListKept : FaultsInv State.reset.store ∧ ∃ t, step State.reset = .next t := ⟨by decide +kernel, _, rfl⟩

/-! ## Small runs of one step -/

/-- KEYACT in settled ACTIVE starts the typing timer with 300 ms. -/
theorem test_keyact_starts_the_typing_timer : (match exec .keyact awake with
    | .next s => s.palm.typing
    | _ => none) = some 300 := by decide +kernel

/-- A SENSE_FRAME in settled ACTIVE stands in the pad's waiting slot; the next step takes it. -/
theorem test_a_frame_waits_then_is_taken : (match exec (.senseFrame .pad (onLink .pad kindSenseFrame cornerFrame)) awake with
    | .next s => (s.pad.slot.frame.isSome, (match step s with
      | .next t => (t.pad.slot.frame.isSome, t.pad.op.isSome, t.store.holds)
      | _ => (true, false, 0)))
    | _ => (false, true, false, 0)) = (true, false, true, 1) := by decide +kernel

/-- Frames B and F of the spec's worked sequence 4.8: the rectangles of a right-handed pen's guard. -/
theorem test_guard_of_the_worked_sequence :
    (fun p : PenProfile =>
      let g := guardFor PenGuard.reset .hover
        { penSeen 70213#32 true with sample := { sample with x := 8100, y := 5100, pressure := 0, hover := 30 } } p
      let h := guardFor g .ink
        { penSeen 70213#32 true with tip := true, sample := { sample with x := 16000, y := 9800, pressure := 500, hover := 0 } } p
      (g.xMin, g.xMax, g.yMin, g.yMax, g.activation, g.retroWindow) = (4900, 8740, 3820, 8940, 1, 6) ∧
      (h.xMin, h.xMax, h.yMin, h.yMax, h.activation) = (12800, 16383, 8520, 10239, 1))
      { hand := .right, ahead := 640, behind := 3200, above := 1280, below := 3840, hoverLimit := 40, inkThreshold := 96,
        linger := 30, retroWindow := 6 } := by decide +kernel

/-- GET_STATUS in a FREE slot is answered at once. -/
theorem test_status_is_answered : (match exec (.getStatus []) awake with
    | .next s => s.queue.records.length
    | _ => 0) = 1 := by decide +kernel

/-- A completion makes the operation idle and releases the frame's hold. -/
theorem test_completion_releases_the_hold :
    (match exec (.senseFrameCompletion .pad) (padOp (opWith []) { awake with store := { awake.store with holds := 1 } }) with
    | .next s => (s.pad.op.isSome, s.store.holds)
    | _ => (true, 9)) = (false, 0) := by decide +kernel
end Sys2Proof.Tests
end

section
/-! PROOFS. The taking of what is due ends (log entry 28); what a command does after it (log entry 1); and the timers at the
end of a step (R9, R142). -/

namespace Sys2Proof.Machine

/-! ## Settling -/

/-- Taking one step after another, each of which lowers the measure, leaves nothing due once the fuel is not less than
the measure. -/
theorem State.settleBy_nextDue (n : Nat) (s : State) (h : s.toCome ≤ n) : (State.settleBy n s).nextDue = none := by
  induction n generalizing s with
  | zero =>
    cases hd : s.nextDue with
    | none => exact hd
    | some d =>
      have hlt := perform_toCome s d (List.find?_some hd)
      omega
  | succ n ih =>
    unfold State.settleBy
    split
    · rename_i d hd
      have hlt := perform_toCome s d (List.find?_some hd)
      exact ih _ (by rw [State.finish_toCome]; omega)
    · assumption

theorem State.settle_nextDue (s : State) : s.settle.nextDue = none :=
  State.settleBy_nextDue 64 s (Nat.le_trans s.toCome_le (by decide))

@[simp] theorem State.settle_settle (s : State) : s.settle.settle = s.settle :=
  State.settle_of_none s.settle_nextDue

/-- Settles O5: the measure of what is still to come is at most 57, and every step taken lowers it. -/
theorem settlingEnds : Obligations.SettlingEnds := State.settle_nextDue

/-! ## Commands after what is due -/

theorem afterDue_settle {s : State} (h : s.inReset = false) (f : State → State) : afterDue f s = afterDue f s.settle := by
  simp [afterDue, h, State.settle_inReset h]

theorem atOnce_of_not_due {s : State} {d : Due} (h : s.inReset = false) (hd : s.isDue d = false) :
    atOnce d s = .next s.settle := by
  simp [atOnce, h, hd]

/-- Settles O4: settling a settled state changes nothing. -/
theorem commandsFollowWhatIsDue : Obligations.CommandsFollowWhatIsDue := by
  refine ⟨fun c s hr hd hc => ?_, fun c d s hr hd => ?_⟩
  · obtain ⟨f, hf⟩ := exec_afterDue c hd hc
    rw [hf, hf, afterDue_settle hr]
  · rw [exec_atOnce hd]
    exact ⟨atOnce_of_due hr, atOnce_of_not_due hr⟩

/-! ## The timers' conditions -/

theorem State.watchHolds_iff (s : State) (l : Surface) :
    s.watchHolds l = true ↔ (s.link l).state = .up ∧ (s.mode.mode = .active ∨ s.mode.mode = .idle) ∧
      s.mode.transition = none ∧ (s.link l).scanChange = false ∧ s.enabled l = true := by
  simp [State.watchHolds, State.settled, and_assoc]

theorem State.noTracks_iff (s : State) : s.noTracks = true ↔ ∀ o ∈ s.tracks.slots, o = none := by
  simp [State.noTracks]

theorem State.autoIdleHolds_iff (s : State) :
    s.autoIdleHolds = true ↔ s.mode.mode = .active ∧ s.mode.transition = none ∧ s.mode.delay ≠ 0 ∧
      (∀ o ∈ s.tracks.slots, o = none) ∧ s.pen.state = .absent ∧ s.mode.setMode = none := by
  simp [State.autoIdleHolds, State.settled, ← State.noTracks_iff, and_assoc]

@[simp] theorem State.finish_link (s : State) (l : Surface) : s.finish.link l = s.followWatch l := by
  cases l <;> rfl

/-- A timer that follows a condition runs exactly under it. -/
theorem Timer.follow_iff {b : Bool} {P : Prop} [Decidable P] (h : b = true ↔ P) (t : Timer) (n : Nat) :
    Timer.follow t b n = if P then some (t.getD n) else none := by
  unfold Timer.follow
  exact if_congr h rfl rfl

/-- Settles O6. -/
theorem timersFollowTheirConditions : Obligations.TimersFollowTheirConditions := by
  refine fun s => ⟨fun l => ?_, ?_, rfl⟩
  · rw [State.finish_link, State.followWatch, Timer.follow_iff (s.watchHolds_iff l)]
    rfl
  · rw [State.finish]
    dsimp only
    rw [Timer.follow_iff s.autoIdleHolds_iff]

end Sys2Proof.Machine
end

section
/-! PROOFS. A packet's arrival at an intake: framing and sorting, the formats of frames and rows, and what each kind of
packet does (chapter 1, R138, R140, R145, R155). -/

namespace Sys2Proof.Machine

/-! ## Framing and sorting -/

theorem wellFramed_iff (bs : Bytes) :
    wellFramed bs = true ↔ 2 ≤ bs.length ∧ bs.length = u8At bs 1 + 3 ∧
      crc8 (bs.take (u8At bs 1 + 2)) = byteAt bs (u8At bs 1 + 2) := by
  simp [wellFramed, lengthOk, crcOk, and_assoc]

theorem kindOf_toNat (bs : Bytes) : (kindOf bs).toNat = u8At bs 0 % 64 := by
  simp [kindOf, u8At]

theorem consumedKind_iff (k : BitVec 6) : consumedKind k = true ↔ k ∈ [0x01#6, 0x02#6, 0x03#6, 0x04#6, 0x05#6] := by
  simp [consumedKind, kindSenseFrame, kindPenFrame, kindScanAck, kindWake, kindIdReply, or_assoc]

/-- The six packet rows act alike: the packet's header sorts it (R2). -/
theorem exec_packetRow {c : Instr} {l : Surface} {bs : Bytes} {s : State} (hc : packetOf c = some (l, bs)) (hq : Quiet s) :
    exec c s = .next (s.packetArrives l bs).finish := by
  cases c <;> simp only [packetOf, Option.some.injEq, Prod.mk.injEq, reduceCtorEq] at hc <;> obtain ⟨rfl, rfl⟩ := hc
  · exact exec_senseFrame hq _ _
  · exact exec_penFrame hq _ _
  · exact exec_scanAck hq _ _
  · exact exec_wake hq _ _
  · exact exec_idReply hq _ _
  · exact exec_passUp hq _ _

theorem State.packetArrives_of_carries {bs p : Bytes} {k : BitVec 6} (h : Carries bs k p) (s : State) (l : Surface) :
    s.packetArrives l bs = s.sortPacket l k p := by
  obtain ⟨hf, hk, hp⟩ := h
  rw [State.packetArrives, if_pos hf, hk, hp]

/-- A well-framed packet on a packet row is sorted by the kind it carries. -/
theorem exec_carries {c : Instr} {l : Surface} {bs p : Bytes} {k : BitVec 6} {s : State} (hc : packetOf c = some (l, bs))
    (hq : Quiet s) (h : Carries bs k p) : exec c s = .next (s.sortPacket l k p).finish := by
  rw [exec_packetRow hc hq, State.packetArrives_of_carries h]

@[simp] theorem State.sortPacket_sense (s : State) (l : Surface) (p : Bytes) :
    s.sortPacket l kindSenseFrame p = s.sensePayload l p := rfl
@[simp] theorem State.sortPacket_pen (s : State) (l : Surface) (p : Bytes) :
    s.sortPacket l kindPenFrame p = s.penPayload l p := rfl
@[simp] theorem State.sortPacket_ack (s : State) (l : Surface) (p : Bytes) :
    s.sortPacket l kindScanAck p = s.ackPayload l p := rfl
@[simp] theorem State.sortPacket_wake (s : State) (l : Surface) (p : Bytes) :
    s.sortPacket l kindWake p = s.wakeArrives l := rfl
@[simp] theorem State.sortPacket_idReply (s : State) (l : Surface) (p : Bytes) :
    s.sortPacket l kindIdReply p = s.idReplyArrives l := rfl

theorem State.sortPacket_passUp {k : BitVec 6} (hk : consumedKind k = false) (s : State) (l : Surface) (p : Bytes) :
    s.sortPacket l k p = s.passUpArrives l k p := by
  simp only [consumedKind, Bool.or_eq_false_iff, beq_eq_false_iff_ne] at hk
  simp [State.sortPacket, hk]

/-- Settles O11. -/
theorem packetsFramedAndSorted : Obligations.PacketsFramedAndSorted := by
  refine ⟨⟨wellFramed_iff, fun c l bs s hc hq hf => ?_⟩, ⟨fun bs => ⟨kindOf_toNat bs, rfl⟩, consumedKind_iff, rfl⟩,
    fun c l bs p k s hc hq h => ?_⟩
  · rw [exec_packetRow hc hq, State.packetArrives, hf]
    rfl
  · rw [exec_carries hc hq h]
    refine ⟨?_, ?_, ?_, ?_, ?_, ?_, fun hk => ?_⟩
    · rintro rfl; rfl
    · rintro rfl rfl; rfl
    · rintro rfl rfl; rfl
    · rintro rfl; rfl
    · rintro rfl; rfl
    · rintro rfl; rfl
    · rw [← consumedKind_iff, Bool.not_eq_true] at hk
      rw [State.sortPacket_passUp hk]

/-! ## Fields of payloads and rows -/

theorem u8At_lt (bs : Bytes) (i : Nat) : u8At bs i < 256 := (byteAt bs i).isLt

theorem u16At_lt (bs : Bytes) (i : Nat) : u16At bs i < 65536 := by
  have h0 := u8At_lt bs i
  have h1 := u8At_lt bs (i + 1)
  unfold u16At
  omega

theorem u32At_eq (bs : Bytes) (i : Nat) :
    u32At bs i = u8At bs i + 256 * u8At bs (i + 1) + 65536 * u8At bs (i + 2) + 16777216 * u8At bs (i + 3) := by
  simp only [u32At, u16At, Nat.add_assoc i, Nat.reduceAdd]
  omega

theorem u32At_lt (bs : Bytes) (i : Nat) : u32At bs i < 4294967296 := by
  have h0 := u16At_lt bs i
  have h1 := u16At_lt bs (i + 2)
  unfold u32At
  omega

theorem toNat_ofNat_u16At (bs : Bytes) (i : Nat) : (BitVec.ofNat 16 (u16At bs i)).toNat = u16At bs i := by
  rw [BitVec.toNat_ofNat]
  exact Nat.mod_eq_of_lt (u16At_lt bs i)

theorem toNat_ofNat_u32At (bs : Bytes) (i : Nat) : (BitVec.ofNat 32 (u32At bs i)).toNat = u32At bs i := by
  rw [BitVec.toNat_ofNat]
  exact Nat.mod_eq_of_lt (u32At_lt bs i)

theorem ofNat_u32At_eq_zero (bs : Bytes) (i : Nat) : BitVec.ofNat 32 (u32At bs i) = 0#32 ↔ u32At bs i = 0 := by
  rw [← BitVec.toNat_inj, toNat_ofNat_u32At]
  rfl

/-! ## The content checks of frames -/

theorem candidateOk_iff (f : Surface) (c : Candidate) :
    candidateOk f c = true ↔ c.x ≤ maxX f ∧ c.y ≤ maxY f ∧ c.peak ≤ 4095 := by
  simp [candidateOk, and_assoc]

/-- A payload carries a sense frame exactly under R3's tests, and then the one its bytes spell. -/
theorem parseSense_eq_some_iff (f : Surface) (p : Bytes) (fr : SenseFrame) :
    parseSense f p = some fr ↔
      (u8At p 2 ≤ 16 ∧ p.length = 3 + 9 * u8At p 2 ∧
        ∀ i < u8At p 2, u16At p (3 + 9 * i) ≤ maxX f ∧ u16At p (5 + 9 * i) ≤ maxY f ∧ u16At p (8 + 9 * i) ≤ 4095) ∧
      fr = { time := BitVec.ofNat 16 (u16At p 0), candidates := (List.range (u8At p 2)).map (candidateAt p) } := by
  rw [eq_comm (a := fr)]
  simp [parseSense, candidateOk_iff, candidateAt]

theorem tiltOk_iff (b : Byte) : tiltOk b = true ↔ -60 ≤ b.toInt ∧ b.toInt ≤ 60 := by
  simp [tiltOk]

/-- A payload carries a pen frame exactly under R3's tests, and then the one its bytes spell. -/
theorem parsePen_eq_some_iff (p : Bytes) (fr : PenFrame) :
    parsePen p = some fr ↔
      (p.length = 16 ∧ u32At p 2 ≠ 0 ∧ u16At p 7 ≤ 16383 ∧ u16At p 9 ≤ 10239 ∧ u16At p 11 ≤ 4095 ∧
        (-60 ≤ (byteAt p 13).toInt ∧ (byteAt p 13).toInt ≤ 60) ∧ (-60 ≤ (byteAt p 14).toInt ∧ (byteAt p 14).toInt ≤ 60)) ∧
      fr = penFrameOf p := by
  rw [eq_comm (a := fr)]
  simp [parsePen, penFrameOf, tiltOk_iff, ofNat_u32At_eq_zero]

theorem State.sensePayload_malformed {l : Surface} {p : Bytes} (h : parseSense l p = none) (s : State) :
    s.sensePayload l p = s.linkError l := by
  simp [State.sensePayload, h]

theorem State.penPayload_malformed {p : Bytes} (h : parsePen p = none) (s : State) :
    s.penPayload .panel p = s.linkError .panel := by
  simp [State.penPayload, h]

/-! ## The layouts of rows -/

theorem surfaceOf_eq {n : Nat} {surface : Option Surface}
    (h : (n = 0 → surface = some .pad) ∧ (n = 1 → surface = some .panel) ∧ (2 ≤ n → surface = none)) :
    surfaceOf n = surface := by
  obtain ⟨h0, h1, h2⟩ := h
  match n with
  | 0 => exact (h0 rfl).symm
  | 1 => exact (h1 rfl).symm
  | n + 2 => exact (h2 (by omega)).symm

/-- A miss limit of 0 reads as 1 and one above 4 as 4 (R178). -/
theorem missLimit_eq (n : Nat) : min 4 (max 1 n) = if n = 0 then 1 else if 4 < n then 4 else n := by
  split
  · omega
  · split <;> omega

/-- Settles O12. -/
theorem frameAndRowFormats : Obligations.FrameAndRowFormats := by
  refine ⟨fun f p => ?_, fun p => ?_, ⟨rfl, rfl⟩, fun f p fr h => ?_, fun p fr h => ?_,
    fun bs i => ⟨rfl, rfl, u32At_eq bs i⟩, fun l p s h => State.sensePayload_malformed h s,
    fun p s h => State.penPayload_malformed h s, fun b surface h => ?_⟩
  · simp [Option.isSome_iff_exists, parseSense_eq_some_iff]
  · simp [Option.isSome_iff_exists, parsePen_eq_some_iff]
  · obtain ⟨-, rfl⟩ := (parseSense_eq_some_iff f p fr).1 h
    refine ⟨toNat_ofNat_u16At p 0, by simp, fun i hi => ?_⟩
    simp [hi, candidateAt]
  · obtain ⟨-, rfl⟩ := (parsePen_eq_some_iff p fr).1 h
    exact ⟨toNat_ofNat_u32At p 2, rfl, rfl, toNat_ofNat_u16At p 0, rfl⟩
  · refine ⟨rfl, ?_, ?_, ?_, toNat_ofNat_u32At b 0, rfl⟩
    · rw [zoneOf, surfaceOf_eq h]
      rfl
    · rw [profileOf, missLimit_eq]
    · rw [ruleOf, surfaceOf_eq h]
      rfl

end Sys2Proof.Machine
end

section
/-! PROOFS. What frames and the Mode Engine's packets do at an intake, pass-up and pass-down, the takes of the waiting
frames, the entry into STALLED, the link timeouts, and the Downlink Arbiter (chapters 1, 2, 4 and 8). -/

namespace Sys2Proof.Machine

/-! ## Discards and waiting slots (R4, R5) -/

theorem State.discards_iff (s : State) (l : Surface) :
    s.discards l = true ↔
      (s.mode.mode = .sleep ∨ s.mode.mode = .waking ∨ s.mode.mode = .doze ∨ s.heading .sleep = true ∨
        s.heading .doze = true) ∨ (s.link l).scanChange = true := by
  simp [State.discards, State.discardingMode, or_assoc]

/-- A slot that a frame reaches: the tally counts the frame replaced (R5). -/
theorem Slot.put_eq {F : Type} (w : Slot F) (f : F) :
    w.put f = { frame := some f, tally := if w.frame = none then w.tally else min 255 (w.tally + 1) } := by
  unfold Slot.put
  cases w.frame <;> rfl

theorem Slot.overrun_eq {F : Type} (w : Slot F) (n : Nat) :
    w.overrun n = if w.frame = none then n else min 65535 (n + 1) := by
  unfold Slot.overrun
  cases w.frame <;> rfl

theorem State.sensePayload_of_parse {l : Surface} {p : Bytes} {fr : SenseFrame} (h : parseSense l p = some fr) (s : State) :
    s.sensePayload l p = s.senseArrives l fr := by
  simp [State.sensePayload, h]

/-- The link and the queue after a sense frame's arrival, before the POSTURE row is read (R8, R9, R11). -/
theorem State.restartWatch_recover (s : State) (l : Surface) :
    (s.restartWatch l).recover l =
      { s.setLink l { s.link l with
          watch := (s.link l).watch.map (fun _ => if s.mode.mode = .active then 100 else 500),
          state := if (s.link l).state = .stalled then .up else (s.link l).state } with
        queue := if (s.link l).state = .stalled then s.queue.raise (.linkBack l) else s.queue } := by
  cases l <;> rfl

/-- Settles O13. -/
theorem senseFrameArrival : Obligations.SenseFrameArrival := by
  intro l bs p fr s hq hc hp
  refine ⟨_, rfl, ?_⟩
  rw [exec_carries (c := .senseFrame l bs) rfl hq hc, State.sortPacket_sense, State.sensePayload_of_parse hp,
    State.senseArrives, ← State.restartWatch_recover, ← or_assoc, ← State.discards_iff]
  dsimp only
  refine ⟨fun h => ?_, fun h => ?_⟩
  · rw [if_pos (by simpa using h)]
  · rw [if_neg (by simpa using h), State.putSense, Slot.put_eq, Slot.overrun_eq]

/-- Settles O14. -/
theorem penFrameArrival : Obligations.PenFrameArrival := by
  intro bs p fr s hq hc hp
  have hs : s.penPayload .panel p = if s.discards .panel then s else s.putPen fr := by simp [State.penPayload, hp]
  have hd := s.discards_iff .panel
  rw [exec_carries (c := .penFrame .panel bs) rfl hq hc, State.sortPacket_pen, hs]
  refine ⟨fun h => ?_, fun h => ?_⟩
  · rw [if_pos (hd.2 h)]
  · rw [if_neg (mt hd.1 h), State.putPen, Slot.put_eq, Slot.overrun_eq]

/-! ## SCAN_ACK, WAKE and ID_REPLY -/

theorem Setting.scans_iff (v : Setting) : v.scans = true ↔ v = .full ∨ v = .reduced ∨ v = .wakeOnTouch := by
  simp [Setting.scans, or_assoc]

/-- A SCAN_ACK ends the scan change, and brings an OFF link UP toward a setting that scans (R8, R138). -/
theorem Link.acked_eq (l : Link) :
    l.acked = { l with
      scanChange := false, settle := none,
      state := if l.state = .off ∧ (l.commanded = .full ∨ l.commanded = .reduced ∨ l.commanded = .wakeOnTouch) then .up
        else l.state } := by
  simp only [Link.acked, Link.endScan, Setting.scans_iff]

theorem ackSetting_eq_none {p : Bytes} (h : p.length ≠ 1 ∨ 4 ≤ u8At p 0) : ackSetting p = none := by
  obtain h | h := h
  · exact if_neg h
  · obtain ⟨n, hn⟩ := Nat.exists_eq_add_of_le' h
    simp [ackSetting, hn]

theorem ackSetting_of_length {p : Bytes} (h : p.length = 1) :
    (u8At p 0 = 0 → ackSetting p = some .off) ∧ (u8At p 0 = 1 → ackSetting p = some .full) ∧
      (u8At p 0 = 2 → ackSetting p = some .reduced) ∧ (u8At p 0 = 3 → ackSetting p = some .wakeOnTouch) := by
  refine ⟨fun hc => ?_, fun hc => ?_, fun hc => ?_, fun hc => ?_⟩ <;> simp [ackSetting, h, hc]

/-- An identity query answered: the link is REPLIED and UP, with LINK_BACK if it was STALLED (R8, R11, R140). -/
theorem State.replied_recover (s : State) (l : Surface) :
    (s.setLink l (s.link l).replied).recover l =
      { s.setLink l { s.link l with query := none, outcome := .replied, state := .up } with
        queue := if (s.link l).state = .stalled then s.queue.raise (.linkBack l) else s.queue } := by
  have hstate : (s.link l).replied.state = if (s.link l).state = .off then .up else (s.link l).state := rfl
  rw [State.recover, State.setLink_same, hstate]
  cases hs : (s.link l).state <;> cases l <;> rfl

/-- Settles O15. -/
theorem modeEnginePackets : Obligations.ModeEnginePackets := by
  refine ⟨fun l bs p s hq hc => ?_, fun l bs p s hq hc => ?_, fun l bs p s hq hc => ?_⟩
  · rw [exec_carries (c := .scanAck l bs) rfl hq hc, State.sortPacket_ack, State.ackPayload]
    refine ⟨fun h1 h2 => ?_, fun h => ?_, ackSetting_eq_none, ackSetting_of_length⟩
    · rw [if_pos ⟨h1, h2⟩, Link.acked_eq]
    · rw [if_neg]
      rintro ⟨h1, h2⟩
      simp [h1, h2] at h
  · rw [exec_carries (c := .wake l bs) rfl hq hc, State.sortPacket_wake]
    refine ⟨fun h => ?_, fun h => ?_⟩
    · rw [State.wakeArrives, if_pos (by simpa [State.settled] using h)]
      rfl
    · rw [State.wakeArrives, if_neg (by simpa [State.settled] using h)]
  · rw [exec_carries (c := .idReply l bs) rfl hq hc, State.sortPacket_idReply, State.idReplyArrives]
    refine ⟨fun h => ?_, fun h => ?_⟩
    · rw [if_pos (Option.isSome_iff_ne_none.2 h), State.replied_recover]
    · rw [if_neg (by simp [h])]

/-! ## Pass-up and pass-down -/

theorem State.passUpArrives_of_length {p : Bytes} (h : p.length ≤ 253) (s : State) (l : Surface) (k : BitVec 6) :
    s.passUpArrives l k p = s.offerPassUp l k p := if_pos h

theorem Link.passDownDrop_reserved {k : BitVec 6} (h : k = kindScanControl ∨ k = kindIdQuery) (l : Link) :
    l.passDownDrop k = some .reserved := if_pos h

theorem Link.passDownDrop_of_free {k : BitVec 6} (h1 : k ≠ kindScanControl) (h2 : k ≠ kindIdQuery) (l : Link) :
    l.passDownDrop k =
      if l.state ≠ .up then some .linkOff else if 2 ≤ l.passDown.length then some .full else none :=
  if_neg (by simp [h1, h2])

theorem State.passDown_dropped {l : Surface} {p : HostPacket} {s : State} {r : DropReason}
    (h : (s.link l).passDownDrop p.kind = some r) : s.passDown l p = s.raise (.passDrop l r) := by
  simp [State.passDown, h]

theorem State.passDown_kept {l : Surface} {p : HostPacket} {s : State} (h : (s.link l).passDownDrop p.kind = none) :
    s.passDown l p = s.setLink l (Link.arbitrate { s.link l with passDown := (s.link l).passDown ++ [p] }) := by
  simp [State.passDown, h]

/-- Settles O16. -/
theorem passUpAndPassDown : Obligations.PassUpAndPassDown := by
  refine ⟨fun l bs p k s hq hc hk hp => ?_, fun l k p s hr => ?_⟩
  · rw [exec_carries (c := .passUp l bs) rfl hq hc, State.sortPacket_passUp hk, State.passUpArrives_of_length hp,
      State.offerPassUp]
    refine ⟨fun h => ?_, fun h => ?_⟩
    · rw [if_pos h]
    · rw [if_neg (by omega)]
      rfl
  · rw [exec_passDown hr]
    refine ⟨fun h => ?_, fun h1 h2 h3 => ?_, fun h1 h2 h3 h4 => ?_, fun h1 h2 h3 h4 => ?_⟩
    · rw [State.passDown_dropped (Link.passDownDrop_reserved h _)]
    · rw [State.passDown_dropped (r := .linkOff)]
      simp [Link.passDownDrop_of_free h1 h2, h3]
    · rw [State.passDown_dropped (r := .full)]
      simp [Link.passDownDrop_of_free h1 h2, h3, h4]
    · rw [State.passDown_kept]
      simp [Link.passDownDrop_of_free h1 h2, h3, h4]

/-! ## The takes of the waiting frames -/

theorem State.penTake_isDue {s : State} {fr : PenFrame} (ho : s.pen.op = none) (hf : s.pen.slot.frame = some fr)
    (hc : s.store.commit = none) (hd : s.pen.dropPending = false) : s.isDue .penTake = true := by
  simp [State.isDue, State.penTakeDue, ho, hf, hc, hd]

theorem State.senseTake_isDue {s : State} {f : Surface} {fr : SenseFrame} (ho : (s.unit f).op = none)
    (hf : (s.unit f).slot.frame = some fr) (hc : s.store.commit = none) (hd : (s.unit f).forcedPending = false) :
    s.isDue (.senseTake f) = true := by
  simp [State.isDue, State.senseTakeDue, ho, hf, hc, hd]

/-- Settles O35. -/
theorem penFrameTake : Obligations.PenFrameTake := by
  intro fr s hr ho hf hc hd
  rw [exec_penFrameTake hr (State.penTake_isDue ho hf hc hd), State.perform, State.takePen, hf]
  rfl

/-- The operation of a taken frame, its two changed counts as the comparisons of R90 and R107 say. -/
theorem State.senseOp_eq (s : State) (f : Surface) (fr : SenseFrame) (profile : Profile) (left : List Candidate) :
    s.senseOp f fr profile left =
      { frame := fr, tally := (s.unit f).slot.tally, posture := s.command.select, gather := s.postureRow.gather f,
        profile := profile, guard := s.pen.guard, typing := s.palm.typing.isSome,
        retroDue := decide (f = .panel ∧ s.pen.guard.activation ≠ s.palm.activation),
        inkDue := decide (f = .panel ∧ s.pen.guard.ink ≠ s.gesture.ink), waiting := left, discards := 0 } := by
  simp [State.senseOp, Bool.beq_eq_decide_eq, bne]

/-- Settles O20. -/
theorem senseFrameTake : Obligations.SenseFrameTake := by
  intro f fr s hr ho hf hc hd
  refine ⟨_, _, _, _, _, rfl, rfl, rfl, rfl, ?_⟩
  rw [exec_senseFrameTake hr f (State.senseTake_isDue ho hf hc hd), State.perform, State.takeSense, hf]
  dsimp only
  rw [State.takenSense, State.senseOp_eq]
  rfl

/-! ## The entry into STALLED and the link timeouts -/

theorem State.enterStalled_of_stalled {s : State} {l : Surface} (h : (s.link l).state = .stalled) (cause : StallCause) :
    s.enterStalled l cause = s := if_pos h

theorem State.enterStalled_of_not_stalled {s : State} {l : Surface} (h : (s.link l).state ≠ .stalled)
    (cause : StallCause) :
    s.enterStalled l cause =
      (let t : State := State.requestForcedEnd (State.emptySlots
          { s.setLink l (s.link l).stalled with queue := s.queue.raiseAll (s.stallEvents l cause) } l) l
       match (generalizing := false) l with
       | .pad => t
       | .panel => t.requestDrop) := if_neg h

theorem State.linkTimeout_of_heading {s : State} (h : s.heading .sleep = true) (l : Surface) (cause : StallCause) :
    s.linkTimeout l cause = s := if_pos h

theorem State.linkTimeout_of_not_heading {s : State} (h : s.heading .sleep = false) (l : Surface) (cause : StallCause) :
    s.linkTimeout l cause = s.enterStalled l cause := if_neg (by simp [h])

/-- A query that runs out is over with outcome NO_REPLY, and the link's timeout follows (R140). -/
theorem State.expireQuery_of_query {s : State} {l : Surface} (h : (s.link l).query ≠ none) :
    s.expireQuery l =
      (s.setLink l { s.link l with query := none, outcome := .noReply }).linkTimeout l .noReply :=
  if_pos (Option.isSome_iff_ne_none.2 h)

/-- A settle timer that runs out ends the scan change, and the link's timeout follows (R138). -/
theorem State.expireSettle_of_settle {s : State} {l : Surface} (h : (s.link l).settle ≠ none) :
    s.expireSettle l = (s.setLink l { s.link l with scanChange := false, settle := none }).linkTimeout l .noAck :=
  if_pos (Option.isSome_iff_ne_none.2 h)

/-- Settles O18. -/
theorem linkStallsAndTimeouts : Obligations.LinkStallsAndTimeouts := by
  refine ⟨fun s cause => ⟨fun l h => State.enterStalled_of_stalled h cause, fun h => ?_, fun h => ?_⟩, fun l s hq => ?_⟩
  · exact State.enterStalled_of_not_stalled (l := .pad) h cause
  · exact State.enterStalled_of_not_stalled (l := .panel) h cause
  · rw [exec_stallWatchExpiry hq, exec_identityReplyTimeout hq, exec_scanSettleTimeout hq]
    refine ⟨fun h => ?_, fun h => ?_, fun h hs => ?_, fun h hs => ?_, fun h => ?_, fun h hs => ?_, fun h hs => ?_,
      fun h => ?_⟩
    · rw [if_pos (Option.isSome_iff_ne_none.2 h)]
    · rw [if_neg (by simp [h])]
    · rw [State.expireQuery_of_query h, State.linkTimeout_of_not_heading (by exact hs)]
    · rw [State.expireQuery_of_query h, State.linkTimeout_of_heading (by exact hs)]
    · rw [State.expireQuery, if_neg (by simp [h])]
    · rw [State.expireSettle_of_settle h, State.linkTimeout_of_not_heading (by exact hs)]
    · rw [State.expireSettle_of_settle h, State.linkTimeout_of_heading (by exact hs)]
    · rw [State.expireSettle, if_neg (by simp [h])]

/-! ## The Downlink Arbiter -/

theorem Link.arbitrate_of_sending {l : Link} (h : l.sending ≠ none) : l.arbitrate = l := by
  obtain ⟨x, hx⟩ := Option.ne_none_iff_exists'.1 h
  simp [Link.arbitrate, hx]

theorem PartPacket.sameKind_scanControl (v : Setting) (q : PartPacket) :
    (PartPacket.scanControl v).sameKind q = decide (q ≠ .idQuery) := by
  cases q <;> rfl

theorem PartPacket.sameKind_idQuery (q : PartPacket) : PartPacket.idQuery.sameKind q = decide (q = .idQuery) := by
  cases q <;> rfl

/-- A SCAN_CONTROL takes the place of every waiting one, else the tail (R15). -/
theorem joinQueue_scanControl (v : Setting) (ps : List PartPacket) :
    joinQueue (.scanControl v) ps =
      if ∀ q ∈ ps, q = PartPacket.idQuery then ps ++ [PartPacket.scanControl v]
      else ps.map (fun q => if q = PartPacket.idQuery then q else PartPacket.scanControl v) := by
  have hany : ps.any (PartPacket.scanControl v).sameKind = true ↔ ¬ ∀ q ∈ ps, q = PartPacket.idQuery := by
    simp [PartPacket.sameKind_scanControl]
  unfold joinQueue
  rw [if_congr hany rfl rfl, ite_not]
  simp [PartPacket.sameKind_scanControl, ite_not]

/-- An ID_QUERY stands where one waits, else joins at the tail (R15). -/
theorem joinQueue_idQuery (ps : List PartPacket) :
    joinQueue .idQuery ps = if PartPacket.idQuery ∈ ps then ps else ps ++ [PartPacket.idQuery] := by
  have hany : ps.any PartPacket.idQuery.sameKind = true ↔ PartPacket.idQuery ∈ ps := by
    simp [PartPacket.sameKind_idQuery]
  have hmap : ps.map (fun x => if PartPacket.idQuery.sameKind x then .idQuery else x) = ps := by
    refine (List.map_congr_left fun x _ => ?_).trans (List.map_id ps)
    cases x <;> rfl
  unfold joinQueue
  rw [if_congr hany hmap rfl]

theorem Link.newerWaiting_eq_false (l : Link) : l.newerWaiting = false ↔ ∀ q ∈ l.partQueue, q = PartPacket.idQuery := by
  have h : ∀ q : PartPacket, (match q with | .scanControl _ => true | .idQuery => false) = false ↔ q = .idQuery := by
    intro q
    cases q <;> simp
  unfold Link.newerWaiting
  simp only [List.any_eq_false, Bool.not_eq_true]
  exact forall₂_congr fun q _ => h q

/-- A completed SCAN_CONTROL starts the settle timer of the scan change it names, with no newer one waiting (R138). -/
theorem Link.sent_scanControl (l : Link) (v : Setting) :
    l.sent (.part (.scanControl v)) =
      if l.scanChange = true ∧ v = l.commanded ∧ ∀ q ∈ l.partQueue, q = PartPacket.idQuery then { l with settle := some 20 }
      else l := by
  simp only [Link.sent, Link.newerWaiting_eq_false]

/-- A completed transmission starts its timer; the arbiter then chooses, unless a SOFT_RESET has become due (R149). -/
theorem State.completeTransmission_of_sending {s : State} {l : Surface} {x : Sending} (h : (s.link l).sending = some x) :
    s.completeTransmission l =
      if (s.setLink l (Link.sent { s.link l with sending := none } x)).softResetDue = true then
        s.setLink l (Link.sent { s.link l with sending := none } x)
      else s.setLink l (Link.sent { s.link l with sending := none } x).arbitrate := by
  simp only [State.completeTransmission, h, State.setLink_same]
  cases l <;> rfl

/-- Settles O19. -/
theorem arbiterAndTransmissions : Obligations.ArbiterAndTransmissions := by
  refine ⟨fun l => ⟨Link.arbitrate_of_sending, fun p rest hs hq => ?_, fun p rest hs hq hd => ?_, fun hs hq hd => ?_,
    fun v => ?_, ?_⟩, fun l s hq => ?_⟩
  · simp [Link.arbitrate, hs, hq]
  · simp [Link.arbitrate, hs, hq, hd]
  · simp [Link.arbitrate, hs, hq, hd]
  · rw [Link.originate, joinQueue_scanControl]
  · rw [Link.originate, joinQueue_idQuery]
  · rw [exec_transmissionComplete hq]
    refine ⟨fun hs => ?_, fun x hs => ?_⟩
    · rw [State.completeTransmission, hs]
    · refine ⟨Link.sent { s.link l with sending := none } x, ?_, ?_, fun v hv => ?_, fun h => ?_, fun h => ?_⟩
      · rintro p rfl; rfl
      · rintro rfl; rfl
      · rw [hv, Link.sent_scanControl]
      · rw [State.completeTransmission_of_sending hs, if_neg (by simp [h])]
      · rw [State.completeTransmission_of_sending hs, if_pos h]

end Sys2Proof.Machine
end

section
/-! PROOFS. The host link port: what each transfer does, where a good packet goes, and the bytes of every packet and record
sent (R161, R164 to R168, 11.2, 11.3). -/

namespace Sys2Proof.Machine

/-! ## The transfer byte -/

theorem State.choose_eq_ignoring_iff (s : State) (first : Byte) :
    s.choose first = .ignoring ↔ first ≠ 0x5A#8 ∧ first ≠ 0xA5#8 := by
  unfold State.choose writeCode readCode
  by_cases hw : first = 0x5A#8
  · simp [hw]
  · by_cases hr : first = 0xA5#8 <;> simp [hw, hr]

/-! ## Reads -/

/-- In NONE the READ code fixes the head record, or EMPTY (R167). -/
theorem State.takeRead_of_none {s : State} (h : s.port.transfer = .none) :
    s.takeRead = s.setTransfer (.read s.queue.records.head? true 0) := by
  rw [State.takeRead, h]
  rfl

theorem State.takeRead_of_busy {s : State} (h : s.port.transfer ≠ .none) : s.takeRead = s := by
  unfold State.takeRead
  split
  · contradiction
  · rfl

/-- A read's end leaves NONE, and removes the record that still stands and was clocked out whole (R161, R168). -/
theorem State.endRead_of_read {s : State} {r : Option Record} {standing : Bool} {out : Nat}
    (h : s.port.transfer = .read r standing out) (clocked : Nat) :
    s.endRead clocked = { s.setTransfer .none with
      queue := if removes r standing (out + clocked) then s.queue.remove else s.queue } := by
  rw [State.endRead, h]
  rfl

theorem State.endRead_of_other {s : State} (h : ∀ r standing out, s.port.transfer ≠ .read r standing out) (clocked : Nat) :
    s.endRead clocked = s := by
  unfold State.endRead
  split
  · rename_i hr
    exact absurd hr (h _ _ _)
  · rfl

theorem removes_iff (r : Option Record) (standing : Bool) (out : Nat) :
    removes r standing out = true ↔ r ≠ none ∧ standing = true ∧ (readPacket r).length ≤ out := by
  simp [removes, Option.isSome_iff_ne_none, and_assoc]

theorem HostPort.miso_of_read {p : HostPort} {r : Option Record} {standing : Bool} {out : Nat}
    (h : p.transfer = .read r standing out) : p.miso = ((readPacket r)[out]?).getD 0xFF#8 := by
  rw [HostPort.miso, h]
  exact List.getD_eq_getElem?_getD

theorem HostPort.miso_of_other {p : HostPort} (h : ∀ r standing out, p.transfer ≠ .read r standing out) :
    p.miso = 0xFF#8 := by
  unfold HostPort.miso
  split
  · rename_i hr
    exact absurd hr (h _ _ _)
  · rfl

/-! ## Ignored transfers -/

/-- A transfer of another first byte, begun here or found IGNORING, is a host link fault at its end (R164). -/
theorem State.endIgnored_of_ignoring {s : State} {first : Byte} (hc : s.choose first = .ignoring)
    (ht : s.port.transfer = .none ∨ s.port.transfer = .ignoring) :
    s.endIgnored first = (s.setTransfer .none).hostFault .badFirst := by
  obtain ht | ht := ht
  · simp only [State.endIgnored, ht, hc, State.transfer]
    rfl
  · simp only [State.endIgnored, ht, hc, State.rise]

theorem State.endIgnored_of_other {s : State} {first : Byte}
    (h : s.choose first ≠ .ignoring ∨ (s.port.transfer ≠ .none ∧ s.port.transfer ≠ .ignoring)) :
    s.endIgnored first = s := by
  unfold State.endIgnored
  split
  · simp_all
  · simp_all
  · rfl

/-! ## Writes -/

/-- A write's end judges the bytes collected, the port being back in NONE (R165). -/
theorem State.endCollected_of_write {s : State} {bs : Bytes}
    (h : s.port.transfer = .none ∨ ∃ got rest, s.port.transfer = .write got ∧ bs = got ++ rest) :
    s.endCollected bs = (s.setTransfer .none).endWrite bs := by
  obtain h | ⟨got, rest, h, rfl⟩ := h
  · rw [State.endCollected, h]
    rfl
  · have hp : got.isPrefixOf (got ++ rest) = true := by simp
    simp only [State.endCollected, h, hp, if_true]
    rfl

theorem State.endCollected_of_mismatch {s : State} {got bs : Bytes} (h : s.port.transfer = .write got)
    (hp : ¬ got <+: bs) : s.endCollected bs = s := by
  simp [State.endCollected, h, hp]

theorem State.endCollected_of_other {s : State} (hn : s.port.transfer ≠ .none)
    (hw : ∀ got, s.port.transfer ≠ .write got) (bs : Bytes) : s.endCollected bs = s := by
  unfold State.endCollected
  split <;> simp_all

theorem judgeWrite_short {bs : Bytes} (h : bs.length < 2 ∨ bs.length < u8At bs 1 + 3) : judgeWrite bs = .short := if_pos h

theorem judgeWrite_of_length {bs : Bytes} (h1 : 2 ≤ bs.length) (h2 : u8At bs 1 + 3 ≤ bs.length) :
    judgeWrite bs =
      if crc8 (bs.take (u8At bs 1 + 2)) = byteAt bs (u8At bs 1 + 2) then .taken (channelOf bs) (kindOf bs) (payloadOf bs)
      else .crc := by
  rw [judgeWrite, if_neg (by omega)]
  simp [crcOk]

/-- A host link fault with the port in NONE: counted, and LINK_ERROR raised. -/
theorem State.hostFault_setTransfer (s : State) (why : LinkErrorReason) :
    (s.setTransfer .none).hostFault why =
      State.raise { s with port := { transfer := .none, errors := min 65535 (s.port.errors + 1) } } (.linkError why) := rfl

/-! ## A good packet -/

/-- A packet's row acts by the channel, kind and payload it carries. -/
theorem exec_hostPacketRow {c : Instr} {ch : BitVec 2} {k : BitVec 6} {p : Bytes} (h : hostPacketOf c = some (ch, k, p))
    (s : State) : exec c s = hostPacket ch k p s := by
  cases c <;> simp only [hostPacketOf, controlOf, Option.map_some, Option.map_none, Option.some.injEq, Prod.mk.injEq,
    reduceCtorEq] at h <;> obtain ⟨rfl, rfl, rfl⟩ := h <;> rfl

/-- In WRITE a packet's row ends the transfer whose bytes it spells, and has no effect otherwise (log entry 21). -/
theorem State.endPacket_of_write {s : State} {got : Bytes} (h : s.port.transfer = .write got) (ch : BitVec 2)
    (k : BitVec 6) (p : Bytes) :
    s.endPacket ch k p =
      if got <+: packetBytes ch k p ∨ packetBytes ch k p <+: got then (s.setTransfer .none).takePacket ch k p else s := by
  simp [State.endPacket, h]

theorem HostReady.of_quiet {s : State} (h : Quiet s) : HostReady (s.setTransfer .none) := ⟨h, rfl⟩

theorem isCommandKind_eq_false {k : BitVec 6} (h : ∀ c : Command, c.code ≠ k) : isCommandKind k = false := by
  simp [isCommandKind, h]

/-! ## The bytes of packets and fields -/

theorem headerByte_eq {head : Byte} {ch : BitVec 2} {k : BitVec 6} (h : head.toNat = 64 * ch.toNat + k.toNat) :
    headerByte ch k = head := by
  have hk : k.toNat < 2 ^ 6 := k.isLt
  refine BitVec.eq_of_toNat_eq ?_
  rw [headerByte, BitVec.toNat_append, ← Nat.shiftLeft_add_eq_or_of_lt hk, Nat.shiftLeft_eq, h]
  omega

theorem packetBytes_eq {head : Byte} {ch : BitVec 2} {k : BitVec 6} (h : head.toNat = 64 * ch.toNat + k.toNat)
    (p : Bytes) :
    packetBytes ch k p =
      head :: BitVec.ofNat 8 p.length :: p ++ [crc8 (head :: BitVec.ofNat 8 p.length :: p)] := by
  rw [packetBytes, headerByte_eq h]

theorem linkChannel_eq {l : Surface} {ch : BitVec 2} (h : (l = .pad → ch = 1#2) ∧ (l = .panel → ch = 2#2)) :
    ch = linkChannel l := by
  obtain ⟨hpad, hpanel⟩ := h
  cases l
  · exact hpad rfl
  · exact hpanel rfl

theorem putU32_eq (n : Nat) :
    putU32 n =
      [BitVec.ofNat 8 n, BitVec.ofNat 8 (n / 256), BitVec.ofNat 8 (n / 65536), BitVec.ofNat 8 (n / 16777216)] := by
  simp [putU32, putU16, Nat.div_div_eq_div_mul]

theorem putS16_eq (i : Int) : putS16 i = putU16 (i % 65536).toNat := by
  simp [putS16, BitVec.toNat_ofInt]

theorem Buttons.byte_eq (b : Buttons) : b.byte = putU8 (b.left.toNat + 2 * b.right.toNat + 4 * b.middle.toNat) := by
  simp only [Buttons.byte, putFlags, List.foldr_cons, List.foldr_nil]
  congr 1
  omega

theorem PenSample.tail_eq (q : PenSample) :
    q.tail = putU8 (q.barrel.toNat + 2 * q.eraser.toNat) ++ putU16 q.x ++ putU16 q.y ++ putU16 q.pressure ++
      [q.tiltX, q.tiltY] ++ putU8 q.hover := rfl

/-! ## The host's transfers -/

theorem exec_readTransferTaken_of_quiet {s : State} (h : Quiet s) : exec .readTransferTaken s = .next s.takeRead.finish :=
  hostRow_of_quiet h State.takeRead

theorem exec_hostPacketRow_of_ready {c : Instr} {ch : BitVec 2} {k : BitVec 6} {p : Bytes}
    (h : hostPacketOf c = some (ch, k, p)) {s : State} (hr : HostReady s) :
    exec c s = .next (s.takePacket ch k p).finish := by
  rw [exec_hostPacketRow h, hostPacket_of_ready hr]

theorem exec_hostPacketRow_of_write {c : Instr} {ch : BitVec 2} {k : BitVec 6} {p got : Bytes}
    (h : hostPacketOf c = some (ch, k, p)) {s : State} (hq : Quiet s) (hw : s.port.transfer = .write got) :
    exec c s = .next (State.finish
      (if got <+: packetBytes ch k p ∨ packetBytes ch k p <+: got then (s.setTransfer .none).takePacket ch k p else s)) := by
  rw [exec_hostPacketRow h, hostPacket, hostRow_of_quiet hq, State.endPacket_of_write hw]

/-- The bytes collected by a write that spell a good packet, with or without fill, act as the packet's own row (R165). -/
theorem exec_discardedWriteTransfer_packet {c : Instr} {ch : BitVec 2} {k : BitVec 6} {p : Bytes}
    (h : hostPacketOf c = some (ch, k, p)) (hl : p.length ≤ 255) (fill : Bytes) {s : State} (hq : Quiet s)
    (hw : s.port.transfer = .none ∨
      ∃ got rest, s.port.transfer = .write got ∧ packetBytes ch k p ++ fill = got ++ rest) :
    exec (.discardedWriteTransfer (packetBytes ch k p ++ fill)) s = exec c (s.setTransfer .none) := by
  rw [exec_discardedWriteTransfer hq, State.endCollected_of_write hw, State.endWrite, judgeWrite_packetBytes ch k hl,
    exec_hostPacketRow_of_ready h (HostReady.of_quiet hq)]

/-- Settles O56. -/
theorem hostTransfers : Obligations.HostTransfers := by
  refine ⟨fun s first => rfl, fun s hr => ?_, fun clocked s hq => ⟨?_, ?_, fun h => ?_⟩,
    fun p r standing out => ⟨fun ht => ⟨fun b hb => ?_, fun hl => ?_⟩, HostPort.miso_of_other⟩,
    fun first s hw hr hs => ?_, fun first s hq h => ?_, fun bs s fault hq hw hfault => ?_, fun s k p => ?_,
    fun c ch k p s hc => ⟨exec_hostPacketRow_of_ready hc, fun got hq hw => ?_⟩, fun bs s hq => ?_,
    fun ch k p head h => packetBytes_eq h p, fun n i => ⟨rfl, rfl, putU32_eq n, putS16_eq i⟩, ⟨rfl, ?_⟩, fun l ch hch => ?_⟩
  -- a read begins
  · rw [exec_readTransferTaken hr, State.takeRead_of_none hr.2]
    rfl
  -- a read ends: the record leaves, the queue stays, no read is in progress
  · intro r out ht hl
    rw [exec_readTransferEnd hq, State.endRead_of_read ht, if_pos ((removes_iff _ _ _).2 ⟨by simp, rfl, hl⟩)]
    rfl
  · intro r standing out ht hn
    have hkeep : ¬ removes r standing (out + clocked) = true := by
      rw [removes_iff]
      rintro ⟨hr, hstand, hl⟩
      obtain h | h | h := hn
      · exact hr h
      · simp [h] at hstand
      · omega
    rw [exec_readTransferEnd hq, State.endRead_of_read ht, if_neg hkeep]
    rfl
  · rw [exec_readTransferEnd hq, State.endRead_of_other h]
  -- MISO within and past the packet's bytes
  · rw [HostPort.miso_of_read ht, hb, Option.getD_some]
  · rw [HostPort.miso_of_read ht, List.getElem?_eq_none hl, Option.getD_none]
  -- a transfer of another first byte, and one that cannot come
  · have hc := (s.choose_eq_ignoring_iff first).2 ⟨hw, hr⟩
    obtain hs | ⟨hq, ht⟩ := hs
    · rw [exec_ignoredTransfer hs.1, State.endIgnored_of_ignoring hc (.inl hs.2), State.hostFault_setTransfer]
    · rw [exec_ignoredTransfer hq, State.endIgnored_of_ignoring hc (.inr ht), State.hostFault_setTransfer]
  · have hno : s.choose first ≠ .ignoring ∨ (s.port.transfer ≠ .none ∧ s.port.transfer ≠ .ignoring) := by
      rw [Ne, State.choose_eq_ignoring_iff]
      tauto
    rw [exec_ignoredTransfer hq, State.endIgnored_of_other hno]
  -- a write's end, by the judgement of its bytes
  · have hend : exec (.discardedWriteTransfer bs) s = .next ((s.setTransfer .none).endWrite bs).finish := by
      rw [exec_discardedWriteTransfer hq, State.endCollected_of_write hw]
    refine ⟨fun h => ?_, fun h1 h2 h => ?_, fun h1 h2 h hch => ?_, fun c ch k p fill hc hl hbs => ?_⟩
    · rw [hend, State.endWrite, judgeWrite_short h, hfault]
      rfl
    · rw [hend, State.endWrite, judgeWrite_of_length h1 h2, if_neg h, hfault]
      rfl
    · rw [hend, State.endWrite, judgeWrite_of_length h1 h2, if_pos h, hch, hfault]
      rfl
    · subst hbs
      exact exec_discardedWriteTransfer_packet hc hl fill hq hw
  -- a packet's consumer
  · exact ⟨fun l => takePacket_link s l k p, rfl, takePacket_softReset s p, fun c hc => takePacket_command s hc p,
      fun h => takePacket_unknown s (isCommandKind_eq_false h) p⟩
  -- a packet's row that finds a write in progress
  · rw [exec_hostPacketRow_of_write hc hq hw]
    refine ⟨fun h => ?_, fun h => ?_⟩
    · rw [if_pos h]
      exact (exec_hostPacketRow_of_ready hc (HostReady.of_quiet hq)).symm
    · rw [if_neg h]
  -- rows that cannot come in the port's state
  · refine ⟨fun h => ?_, fun hn hw => ?_, fun got hw hp => ?_⟩
    · rw [exec_readTransferTaken_of_quiet hq, State.takeRead_of_busy h]
    · rw [exec_discardedWriteTransfer hq, State.endCollected_of_other hn hw]
    · rw [exec_discardedWriteTransfer hq, State.endCollected_of_mismatch hw hp]
  -- the records' bytes: the statement's encoders are the model's
  · intro packet yes surface buttons penState tail hpacket hyes hpad hpanel hbuttons hpen htail
    obtain rfl : packet = packetBytes 0#2 := funext fun k => funext fun p => hpacket k p
    obtain rfl : yes = Bool.toNat := funext fun b => by rw [hyes]; cases b <;> rfl
    obtain rfl : surface = surfaceCode := funext fun f => by cases f <;> assumption
    obtain rfl : buttons = Buttons.byte := funext fun b => (hbuttons b).trans b.byte_eq.symm
    obtain rfl : penState = PenState.code := funext fun st => by rw [hpen]; cases st <;> rfl
    obtain rfl : tail = PenSample.tail := funext fun q => (htail q).trans q.tail_eq.symm
    refine ⟨fun _ _ => rfl, fun _ _ _ => rfl, fun _ _ => rfl, fun _ _ _ _ _ _ _ => rfl, fun _ => rfl, fun _ => rfl,
      fun l _ _ => ?_, fun _ _ _ => rfl, fun _ _ _ _ => rfl, fun _ _ _ => rfl, fun _ _ => rfl⟩
    cases l <;> rfl
  -- the bytes sent down a link
  · rw [linkChannel_eq hch]
    refine ⟨fun h => rfl, fun v n h => ?_, rfl⟩
    simp only [List.mem_cons, Prod.mk.injEq, List.not_mem_nil, or_false] at h
    obtain ⟨rfl, rfl⟩ | ⟨rfl, rfl⟩ | ⟨rfl, rfl⟩ | ⟨rfl, rfl⟩ := h <;> rfl

end Sys2Proof.Machine
end

section
/-! PROOFS. Contact ids and the allocator's answers (R24 to R27, R52). -/

namespace Sys2Proof.Machine

/-! ## Contact ids (R24) -/

/-- The id tried after `k` others from the pointer `n` on, in the order 1 to 255 and back to 1 (R24). -/
def tryId (n k : Nat) : Nat := (n - 1 + k) % 255 + 1

theorem tryId_zero {n : Nat} (h1 : 1 ≤ n) (h2 : n ≤ 255) : tryId n 0 = n := by
  unfold tryId
  omega

theorem tryId_range (n k : Nat) : 1 ≤ tryId n k ∧ tryId n k ≤ 255 := by
  unfold tryId
  omega

theorem idAfter_range {n : Nat} (h : n ≤ 255) : 1 ≤ idAfter n ∧ idAfter n ≤ 255 := by
  unfold idAfter
  split <;> omega

theorem tryId_idAfter {n : Nat} (h1 : 1 ≤ n) (h2 : n ≤ 255) (k : Nat) : tryId (idAfter n) k = tryId n (k + 1) := by
  unfold tryId idAfter
  split <;> omega

theorem tryId_injOn (n : Nat) : Set.InjOn (tryId n) (Finset.range 21) := by
  intro j hj k hk h
  simp only [Finset.coe_range, Set.mem_Iio] at hj hk
  unfold tryId at h
  omega

theorem idHeld_iff (slots : List (Option Track)) (id : Nat) :
    idHeld slots id = true ↔ ∃ t, some t ∈ slots ∧ t.id = id := by
  simp [idHeld, Option.exists]

/-- The search takes the first try that no occupied slot holds, or runs out of tries. -/
theorem freshId_search (slots : List (Option Track)) (tries : Nat) {n : Nat} (h1 : 1 ≤ n) (h2 : n ≤ 255) :
    ∃ k ≤ tries, freshId slots tries n = tryId n k ∧ (∀ j < k, idHeld slots (tryId n j) = true) ∧
      (k < tries → idHeld slots (tryId n k) = false) := by
  induction tries generalizing n with
  | zero => exact ⟨0, Nat.le_refl 0, (tryId_zero h1 h2).symm, by simp, by simp⟩
  | succ tries ih =>
    unfold freshId
    split
    · rename_i hn
      obtain ⟨h1', h2'⟩ := idAfter_range h2
      obtain ⟨k, hk, he, hheld, hfree⟩ := ih h1' h2'
      rw [tryId_idAfter h1 h2] at he hfree
      refine ⟨k + 1, by omega, he, fun j hj => ?_, fun hlt => hfree (by omega)⟩
      cases j with
      | zero => rwa [tryId_zero h1 h2]
      | succ j =>
        rw [← tryId_idAfter h1 h2]
        exact hheld j (by omega)
    · rename_i hn
      exact ⟨0, Nat.zero_le _, (tryId_zero h1 h2).symm, by simp, fun _ => by
        rw [tryId_zero h1 h2]
        simpa using hn⟩

/-- The ids that occupied slots hold. -/
def heldIds (slots : List (Option Track)) : Finset Nat := (slots.filterMap (Option.map Track.id)).toFinset

theorem mem_heldIds (slots : List (Option Track)) (id : Nat) : id ∈ heldIds slots ↔ idHeld slots id = true := by
  simp [heldIds, idHeld_iff, Option.exists]

theorem heldIds_card_le (slots : List (Option Track)) : (heldIds slots).card ≤ slots.length :=
  (List.toFinset_card_le _).trans (List.length_filterMap_le _ _)

/-- The first 21 tries are different ids, and 20 slots hold no more than 20 of them. -/
theorem exists_tryId_free {slots : List (Option Track)} (h : slots.length = 20) (n : Nat) :
    ∃ k ≤ 20, idHeld slots (tryId n k) = false := by
  have htries : ((Finset.range 21).image (tryId n)).card = 21 := Finset.card_image_of_injOn (tryId_injOn n)
  have hheld := heldIds_card_le slots
  obtain ⟨id, hid, hfree⟩ := Finset.exists_mem_notMem_of_card_lt_card
    (show (heldIds slots).card < ((Finset.range 21).image (tryId n)).card by omega)
  obtain ⟨k, hk, rfl⟩ := Finset.mem_image.1 hid
  rw [Finset.mem_range] at hk
  exact ⟨k, by omega, by simpa [mem_heldIds] using hfree⟩

/-- With 20 slots the id taken is the first try that no occupied slot holds (R24). -/
theorem freshId_first {slots : List (Option Track)} (h : slots.length = 20) {n : Nat} (h1 : 1 ≤ n) (h2 : n ≤ 255) :
    ∃ k ≤ 20, freshId slots 21 n = tryId n k ∧ idHeld slots (freshId slots 21 n) = false ∧
      ∀ j < k, idHeld slots (tryId n j) = true := by
  obtain ⟨k, hk, he, hheld, hfree⟩ := freshId_search slots 21 h1 h2
  obtain ⟨m, hm, hmfree⟩ := exists_tryId_free h n
  have hle : k ≤ m := by
    by_contra hlt
    rw [hheld m (by omega)] at hmfree
    cases hmfree
  exact ⟨k, by omega, he, by rw [he]; exact hfree (by omega), hheld⟩

/-! ## The allocator (R25, R26) -/

/-- A request waits that the row names. -/
def State.asks (s : State) (who : Requesters) (f : Surface) : Bool := namesSurface who f && s.requesting f

theorem State.asks_iff (s : State) (who : Requesters) (f : Surface) :
    s.asks who f = true ↔ namesSurface who f = true ∧ s.requesting f = true := by
  simp [State.asks]

theorem State.served_eq (s : State) (who : Requesters) :
    s.served who =
      if s.asks who .pad && s.asks who .panel then some (otherSurface s.tracks.lastServed)
      else if s.asks who .pad then some .pad
      else if s.asks who .panel then some .panel
      else none := rfl

theorem otherSurface_pad : otherSurface .pad = .panel := rfl

theorem otherSurface_panel : otherSurface .panel = .pad := rfl

theorem otherSurface_eq_iff (f g : Surface) : otherSurface g = f ↔ g ≠ f := by
  cases f <;> cases g <;> decide

/-- Of two requests waiting the allocator answers the one of the surface it did not serve last, of one that one (R25). -/
theorem State.served_iff (s : State) (who : Requesters) (f : Surface) :
    s.served who = some f ↔
      s.asks who f = true ∧ (s.asks who (otherSurface f) = true → s.tracks.lastServed ≠ f) := by
  rw [State.served_eq]
  cases hpad : s.asks who .pad <;> cases hpanel : s.asks who .panel <;> cases f <;>
    simp [hpad, hpanel, otherSurface_pad, otherSurface_panel, otherSurface_eq_iff]

theorem freeSlot_eq_some {slots : List (Option Track)} {i : Nat} (h : slots[i]? = some none)
    (hlow : ∀ j < i, slots[j]? ≠ some none) : freeSlot slots = some i := by
  obtain ⟨hi, hnone⟩ := List.getElem?_eq_some_iff.1 h
  refine List.findIdx?_eq_some_iff_getElem.2 ⟨hi, by rw [hnone]; rfl, fun j hj hfree => hlow j hj ?_⟩
  rw [List.getElem?_eq_getElem (by omega), Option.isNone_iff_eq_none.1 hfree]

theorem getElem?_of_freeSlot {slots : List (Option Track)} {i : Nat} (h : freeSlot slots = some i) :
    slots[i]? = some none := by
  obtain ⟨hi, hfree, -⟩ := List.findIdx?_eq_some_iff_getElem.1 h
  rw [List.getElem?_eq_getElem hi, Option.isNone_iff_eq_none.1 hfree]

theorem freeSlot_eq_none {slots : List (Option Track)} (h : ∀ o ∈ slots, o ≠ none) : freeSlot slots = none :=
  List.findIdx?_eq_none_iff.2 fun o ho => Option.isNone_eq_false_iff.2 (Option.isSome_iff_ne_none.2 (h o ho))

/-- A waiting request of the surface served is granted the lowest FREE slot (R25). -/
theorem State.allocate_of_free {s : State} {who : Requesters} {f : Surface} {op : SenseOp} {c : Candidate}
    {rest : List Candidate} {i : Nat} (hf : s.served who = some f) (ho : (s.unit f).op = some op)
    (hw : op.waiting = c :: rest) (hi : freeSlot s.tracks.slots = some i) :
    s.allocate who = s.grantSlot f op c rest i := by
  simp [State.allocate, State.answerSlot, hf, ho, hw, hi]

/-- With no FREE slot it is refused (R26). -/
theorem State.allocate_of_full {s : State} {who : Requesters} {f : Surface} {op : SenseOp} {c : Candidate}
    {rest : List Candidate} (hf : s.served who = some f) (ho : (s.unit f).op = some op) (hw : op.waiting = c :: rest)
    (hi : freeSlot s.tracks.slots = none) : s.allocate who = s.refuseSlot f op rest := by
  simp [State.allocate, State.answerSlot, hf, ho, hw, hi]

/-- Where no request waits that the row names, there is no answer. -/
theorem State.allocate_of_none {s : State} {who : Requesters} (h : s.served who = none) : s.allocate who = s := by
  simp [State.allocate, h]

theorem birthState_held (r : HeldReason) (confirm : Nat) : birthState (some r) confirm = .held r := rfl

theorem birthState_unheld (confirm : Nat) : birthState none confirm = if confirm = 0 then .live else .tentative := rfl

/-- Settles O22. -/
theorem contactIdsAndSlotRequest : Obligations.ContactIdsAndSlotRequest := by
  refine ⟨fun slots n h h1 h2 => ?_, fun s who f => ?_,
    fun who f op c rest s hq hf ho hw => ⟨fun i hi hlow => ?_, fun hfull => ?_⟩,
    fun who s hq hf => ?_⟩
  · obtain ⟨k, hk, he, hfree, hheld⟩ := freshId_first h h1 h2
    refine ⟨k, hk, he, fun t ht hid => ?_, fun j hj => (idHeld_iff _ _).1 (hheld j hj)⟩
    rw [(idHeld_iff _ _).2 ⟨t, ht, hid⟩] at hfree
    cases hfree
  · rw [State.served_iff, State.asks_iff, State.asks_iff, and_assoc, and_imp]
  · refine ⟨_, _, birthState (classify f op (s.lookup f c.x c.y op.posture) s.tracks.slots c) op.profile.confirm, _,
      rfl, rfl, fun r hr => by rw [hr, birthState_held], fun hr => by rw [hr, birthState_unheld], rfl, ?_⟩
    rw [exec_slotRequest hq, State.allocate_of_free hf ho hw (freeSlot_eq_some hi hlow)]
    rfl
  · rw [exec_slotRequest hq, State.allocate_of_full hf ho hw (freeSlot_eq_none hfull)]
    rfl
  · rw [exec_slotRequest hq, State.allocate_of_none hf]

end Sys2Proof.Machine
end

section
/-! PROOFS. The Track Table through every step: its slots, ids and pointer (R24, R25) and its HELD tracks (R19, R28). -/

namespace Sys2Proof.Machine

/-! ## Births -/

/-- The table after a birth in slot `i`, which was FREE: the track has the id the pointer gives, and the pointer moves on
(R24, R27). -/
structure Birth (a b : TrackTable) (i : Nat) (u : Track) : Prop where
  free : a.slots[i]? = some none
  slots : b.slots = a.slots.set i (some u)
  id : u.id = freshId a.slots 21 a.nextId
  nextId : b.nextId = idAfter u.id

/-- An answer of the allocator leaves the table's slots and pointer, or is a birth (R25). -/
theorem allocate_tracks (s : State) (who : Requesters) :
    ((s.allocate who).tracks.slots = s.tracks.slots ∧ (s.allocate who).tracks.nextId = s.tracks.nextId) ∨
      ∃ i u, Birth s.tracks (s.allocate who).tracks i u := by
  unfold State.allocate
  split
  · unfold State.answerSlot
    split
    · split
      · split
        · rename_i i hi
          exact .inr ⟨i, _, getElem?_of_freeSlot hi, rfl, rfl, rfl⟩
        · exact .inl ⟨rfl, rfl⟩
      · exact .inl ⟨rfl, rfl⟩
    · exact .inl ⟨rfl, rfl⟩
  · exact .inl ⟨rfl, rfl⟩

/-- After a birth a slot holds the newborn track, or what it held. -/
theorem Birth.getElem? {a b : TrackTable} {i : Nat} {u : Track} (h : Birth a b i u) (j : Nat) :
    b.slots[j]? = if i = j then some (some u) else a.slots[j]? := by
  obtain ⟨hi, -⟩ := List.getElem?_eq_some_iff.1 h.free
  rw [h.slots, List.getElem?_set, if_pos hi]

/-- A track of the table after a birth is the newborn one or stood there before. -/
theorem Birth.cases {a b : TrackTable} {i j : Nat} {u x : Track} (h : Birth a b i u)
    (hx : b.slots[j]? = some (some x)) : (j = i ∧ x = u) ∨ a.slots[j]? = some (some x) := by
  rw [h.getElem?] at hx
  split at hx
  · rename_i hij
    cases hx
    exact .inl ⟨hij.symm, rfl⟩
  · exact .inr hx

/-- The id of a birth is in range. -/
theorem Birth.id_range {a b : TrackTable} {i : Nat} {u : Track} (h : Birth a b i u) (ha : TracksInv a) :
    1 ≤ u.id ∧ u.id ≤ 255 := by
  obtain ⟨hlen, ⟨hn1, hn2⟩, -, -⟩ := ha
  obtain ⟨k, -, he, -, -⟩ := freshId_first hlen hn1 hn2
  rw [h.id, he]
  exact tryId_range _ _

/-- No occupied slot holds the id of a birth. -/
theorem Birth.id_fresh {a b : TrackTable} {i j : Nat} {u x : Track} (h : Birth a b i u) (ha : TracksInv a)
    (hx : a.slots[j]? = some (some x)) : x.id ≠ u.id := by
  obtain ⟨hlen, ⟨hn1, hn2⟩, -, -⟩ := ha
  obtain ⟨k, -, -, hfree, -⟩ := freshId_first hlen hn1 hn2
  intro hid
  rw [← h.id, (idHeld_iff _ _).2 ⟨x, List.mem_of_getElem? hx, hid⟩] at hfree
  cases hfree

theorem TracksInv.birth {a b : TrackTable} {i : Nat} {u : Track} (ha : TracksInv a) (h : Birth a b i u) :
    TracksInv b := by
  have hrange := h.id_range ha
  have hfresh : ∀ {j : Nat} {x : Track}, a.slots[j]? = some (some x) → x.id ≠ u.id := h.id_fresh ha
  obtain ⟨hlen, -, hids, hone⟩ := ha
  refine ⟨by rw [h.slots, List.length_set, hlen], by rw [h.nextId]; exact idAfter_range hrange.2, fun x hx => ?_,
    fun j k x y hj hk hxy => ?_⟩
  · obtain ⟨j, hj⟩ := List.getElem?_of_mem hx
    rcases h.cases hj with ⟨-, rfl⟩ | hj
    · exact hrange
    · exact hids x (List.mem_of_getElem? hj)
  · rcases h.cases hj with ⟨rfl, rfl⟩ | hj' <;> rcases h.cases hk with ⟨rfl, rfl⟩ | hk'
    · rfl
    · exact absurd hxy.symm (hfresh hk')
    · exact absurd hxy (hfresh hj')
    · exact hone j k x y hj' hk' hxy

/-! ## The table's relations through every step -/

theorem TracksInv.reset : TracksInv TrackTable.reset := by
  have hfree : ∀ x : Track, some x ∉ TrackTable.reset.slots := fun x hx => by
    cases List.eq_of_mem_replicate hx
  exact ⟨rfl, by decide, fun x hx => absurd hx (hfree x),
    fun i j x y hi _ _ => absurd (List.mem_of_getElem? hi) (hfree x)⟩

theorem TracksInv.keeps {s t : State} (h : TracksInv s.tracks) (hk : Keeps s t) : TracksInv t.tracks :=
  h.of_from hk.slots hk.nextId

theorem TracksInv.allocate {s : State} (h : TracksInv s.tracks) (who : Requesters) :
    TracksInv (s.allocate who).tracks := by
  obtain ⟨hs, hn⟩ | ⟨i, u, hb⟩ := allocate_tracks s who
  · exact h.of_from (by rw [hs]; exact SlotsFrom.refl _) hn
  · exact h.birth hb

theorem State.softResetEffect_tracks (s : State) : s.softResetEffect.tracks = TrackTable.reset := rfl

theorem State.assertReset_tracks (s : State) : s.assertReset.tracks = TrackTable.reset := rfl

theorem State.releaseReset_tracks (s : State) : s.releaseReset.tracks = s.tracks := by
  unfold State.releaseReset
  split <;> rfl

theorem State.powerOn_tracks (s : State) : s.powerOn.tracks = TrackTable.reset := rfl

theorem TracksInv.perform {s : State} (h : TracksInv s.tracks) (d : Due) : TracksInv (s.perform d).tracks := by
  by_cases hr : d = .softReset
  · subst hr
    rw [State.perform, State.softResetEffect_tracks]
    exact TracksInv.reset
  · exact h.keeps (perform_keeps s d hr)

theorem TracksInv.effectOf {s : State} (h : TracksInv s.tracks) (c : Instr) : TracksInv (effectOf c s).tracks := by
  by_cases hb : ∃ who, c = .slotRequest who
  · obtain ⟨who, rfl⟩ := hb
    exact h.allocate who
  · exact h.keeps (effectOf_keeps c (fun who hc => hb ⟨who, hc⟩) s)

/-- Settles O30: every at-once step, effect and reset keeps the table's relations. -/
theorem trackTableKept : Obligations.TrackTableKept := by
  intro s t h hs
  refine step_keeps (P := fun s => TracksInv s.tracks) (fun s d h _ => h.perform d) (fun s h => ?_)
    (fun c s h => h.effectOf c) (fun s _ => ?_) (fun s h => ?_) (fun s _ => ?_) (fun s q h => ?_)
    (fun s h => h.keeps (Moves.enterWaiting s).toKeeps) h hs
  · rwa [State.finish_tracks]
  · rw [State.assertReset_tracks]
    exact TracksInv.reset
  · rwa [State.releaseReset_tracks]
  · rw [State.powerOn_tracks]
    exact TracksInv.reset
  · rwa [State.withPending_tracks]

/-- Settles O58. -/
theorem invariantsAtReset : Obligations.InvariantsAtReset :=
  ⟨by decide, TracksInv.reset, PenInv.absent PenUnit.reset, rfl, by decide⟩

/-! ## HELD tracks -/

/-- A slot that holds a HELD track holds it HELD for the same reason afterwards, or is FREE (R19). -/
def HeldKept (a b : List (Option Track)) : Prop :=
  ∀ (i : Nat) (x : Track) (r : HeldReason), a[i]? = some (some x) → x.state = .held r →
    b[i]? = some none ∨ ∃ y, b[i]? = some (some y) ∧ y.id = x.id ∧ y.state = .held r

theorem HeldKept.refl (a : List (Option Track)) : HeldKept a a := fun _ x _ hx hr => .inr ⟨x, hx, rfl, hr⟩

theorem SlotsFrom.heldKept {a b : List (Option Track)} (h : SlotsFrom a b) : HeldKept a b := by
  obtain ⟨hlen, hfrom⟩ := h
  intro i x r hx hr
  obtain ⟨hi, -⟩ := List.getElem?_eq_some_iff.1 hx
  have hb : b[i]? = some (b[i]'(by omega)) := List.getElem?_eq_getElem _
  cases hy : b[i]'(by omega) with
  | none => exact .inl (by rw [hb, hy])
  | some y =>
    rw [hy] at hb
    obtain ⟨t, ht, hid, -, hheld⟩ := hfrom i y hb
    rw [hx] at ht
    cases ht
    exact .inr ⟨y, hb, hid, hheld r hr⟩

/-- A birth takes a FREE slot and leaves the others. -/
theorem Birth.heldKept {a b : TrackTable} {i : Nat} {u : Track} (h : Birth a b i u) : HeldKept a.slots b.slots := by
  intro j x r hx hr
  refine .inr ⟨x, ?_, rfl, hr⟩
  rw [h.getElem?, if_neg, hx]
  rintro rfl
  rw [h.free] at hx
  cases hx

theorem HeldKept.reset {a : List (Option Track)} (h : a.length = 20) : HeldKept a TrackTable.reset.slots := by
  intro i x r hx _
  obtain ⟨hi, -⟩ := List.getElem?_eq_some_iff.1 hx
  exact .inl (List.getElem?_replicate_of_lt (by omega))

theorem perform_heldKept {s : State} (h : s.tracks.slots.length = 20) (d : Due) :
    HeldKept s.tracks.slots (s.perform d).tracks.slots := by
  by_cases hr : d = .softReset
  · subst hr
    rw [State.perform, State.softResetEffect_tracks]
    exact HeldKept.reset h
  · exact (perform_keeps s d hr).slots.heldKept

theorem effectOf_heldKept (c : Instr) (s : State) : HeldKept s.tracks.slots (effectOf c s).tracks.slots := by
  by_cases hb : ∃ who, c = .slotRequest who
  · obtain ⟨who, rfl⟩ := hb
    obtain ⟨hs, -⟩ | ⟨i, u, hbirth⟩ := allocate_tracks s who
    · show HeldKept _ (s.allocate who).tracks.slots
      rw [hs]
      exact HeldKept.refl _
    · exact hbirth.heldKept
  · exact (effectOf_keeps c (fun who hc => hb ⟨who, hc⟩) s).slots.heldKept

/-- With no response that has room, a command's run is its effect. -/
theorem runOf_of_not_entry {s : State} (h : s.entryDue = false) (c : Instr) : runOf c s = effectOf c s := by
  simp [runOf, State.beforeEntry, h, State.enterWaiting_of_not_due h]

/-- A reset row frees every slot or leaves the table. -/
theorem exec_reset_heldKept {c : Instr} (hc : resetRow c = true) {s t : State} (h : s.tracks.slots.length = 20)
    (ht : exec c s = .next t) : HeldKept s.tracks.slots t.tracks.slots := by
  cases c <;> simp only [resetRow, Bool.false_eq_true] at hc
  case resetNAssert =>
    obtain rfl : s.assertReset = t := Host.Outcome.next.inj ht
    exact HeldKept.reset h
  case resetNRelease =>
    obtain rfl : s.releaseReset = t := Host.Outcome.next.inj ht
    rw [State.releaseReset_tracks]
    exact HeldKept.refl _
  case powerOnReset =>
    obtain rfl : s.powerOn = t := Host.Outcome.next.inj ht
    exact HeldKept.reset h

/-- In reset a row that is none of the reset rows changes nothing (R148). -/
theorem exec_in_reset {c : Instr} (hc : resetRow c = false) {s : State} (h : s.inReset = true) : exec c s = .next s := by
  cases hd : dueOf c with
  | some d => rw [exec_atOnce hd, atOnce_in_reset h]
  | none => rw [exec_runOf c hd hc, afterDue_in_reset h]

/-- With nothing due a command takes no step but its effect, and an at-once row none. -/
theorem exec_quiet_heldKept {c : Instr} (hc : resetRow c = false) {s t : State} (h : Quiet s)
    (ht : exec c s = .next t) : HeldKept s.tracks.slots t.tracks.slots := by
  cases hd : dueOf c with
  | some d =>
    rw [exec_atOnce hd, atOnce_of_quiet h] at ht
    obtain rfl : s = t := Host.Outcome.next.inj ht
    exact HeldKept.refl _
  | none =>
    rw [exec_runOf c hd hc, afterDue_of_none h.1 h.2.1, runOf_of_not_entry h.2.2] at ht
    obtain rfl : (effectOf c s).finish = t := Host.Outcome.next.inj ht
    rw [State.finish_tracks]
    exact effectOf_heldKept c s

/-- Settles O29. -/
theorem heldIsFinal : Obligations.HeldIsFinal := by
  intro s t i x r h hx hr hstep
  suffices hk : HeldKept s.tracks.slots t.tracks.slots from hk i x r hx hr
  obtain ⟨c, hc, ht⟩ | ⟨d, -, rfl⟩ := hstep
  · cases hrow : resetRow c with
    | true => exact exec_reset_heldKept hrow h ht
    | false =>
      rcases hc with hq | hin | hrow'
      · exact exec_quiet_heldKept hrow hq ht
      · rw [exec_in_reset hrow hin] at ht
        obtain rfl : s = t := Host.Outcome.next.inj ht
        exact HeldKept.refl _
      · rw [hrow] at hrow'
        cases hrow'
  · rw [State.finish_tracks]
    exact perform_heldKept h d

end Sys2Proof.Machine
end

section
/-! PROOFS. Matching (R22, R23) and the stages of a sense frame, track by track (R28 to R31, R85, R91). -/

namespace Sys2Proof.Machine

/-! ## Matching -/

/-- The candidate at place `i` is within reach at squared distance `d`; of those within reach none is nearer, and none
before it is as near (R22). -/
structure Nearest (x y reach : Nat) (cs : List Candidate) (i d : Nat) : Prop where
  found : ∃ c, cs[i]? = some c ∧ d = sqDist x y c.x c.y
  within : d ≤ reach
  least : ∀ j c, cs[j]? = some c → sqDist x y c.x c.y ≤ reach →
    d ≤ sqDist x y c.x c.y ∧ (sqDist x y c.x c.y = d → i ≤ j)

/-- The first candidate, if none of the others is nearer. -/
theorem Nearest.head {x y reach : Nat} {c : Candidate} {cs : List Candidate} (hc : sqDist x y c.x c.y ≤ reach)
    (h : ∀ (j : Nat) (c' : Candidate), cs[j]? = some c' → sqDist x y c'.x c'.y ≤ reach →
      sqDist x y c.x c.y ≤ sqDist x y c'.x c'.y) :
    Nearest x y reach (c :: cs) 0 (sqDist x y c.x c.y) := by
  refine ⟨⟨c, rfl, rfl⟩, hc, fun j c' hj hr => ⟨?_, fun _ => Nat.zero_le j⟩⟩
  cases j with
  | zero =>
    cases hj
    exact Nat.le_refl _
  | succ j => exact h j c' hj hr

/-- The nearest of the others, if the first candidate is out of reach or farther. -/
theorem Nearest.cons {x y reach i d : Nat} {c : Candidate} {cs : List Candidate} (h : Nearest x y reach cs i d)
    (hc : sqDist x y c.x c.y ≤ reach → d < sqDist x y c.x c.y) : Nearest x y reach (c :: cs) (i + 1) d := by
  refine ⟨h.found, h.within, fun j c' hj hr => ?_⟩
  cases j with
  | zero =>
    cases hj
    have hlt := hc hr
    exact ⟨Nat.le_of_lt hlt, fun he => by omega⟩
  | succ j =>
    obtain ⟨hle, hfirst⟩ := h.least j c' hj hr
    exact ⟨hle, fun he => Nat.succ_le_succ (hfirst he)⟩

theorem nearest_eq_none_iff (x y reach : Nat) (cs : List Candidate) :
    nearest x y reach cs = none ↔ ∀ c ∈ cs, reach < sqDist x y c.x c.y := by
  induction cs with
  | nil => simp [nearest]
  | cons c cs ih =>
    rw [List.forall_mem_cons, ← ih, nearest]
    split
    · rename_i hc
      split
      · split <;> simp [hc]
      · simp [hc]
    · rename_i hc
      simp [Nat.lt_of_not_le hc]

theorem nearest_eq_some {x y reach : Nat} {cs : List Candidate} {i d : Nat}
    (h : nearest x y reach cs = some (i, d)) : Nearest x y reach cs i d := by
  induction cs generalizing i d with
  | nil => cases h
  | cons c cs ih =>
    unfold nearest at h
    dsimp only at h
    cases hn : nearest x y reach cs with
    | none =>
      rw [hn, Option.map_none] at h
      split at h
      · rename_i hc
        cases h
        have hfar := (nearest_eq_none_iff x y reach cs).1 hn
        exact Nearest.head hc fun j c' hj hr => absurd hr (Nat.not_le.2 (hfar c' (List.mem_of_getElem? hj)))
      · cases h
    | some p =>
      obtain ⟨k, e⟩ := p
      have hk := ih hn
      rw [hn, Option.map_some] at h
      dsimp only at h
      split at h
      · rename_i hc
        split at h
        · rename_i hlt
          cases h
          exact hk.cons fun _ => hlt
        · rename_i hge
          cases h
          exact Nearest.head hc fun j c' hj hr => Nat.le_trans (Nat.le_of_not_lt hge) (hk.least j c' hj hr).1
      · rename_i hc
        cases h
        exact hk.cons fun hr => absurd hr hc

/-- A FREE slot and a track of the other surface take no candidate. -/
theorem matchSlots_other {f : Surface} {o : Option Track} (ho : ∀ t, o = some t → t.surface ≠ f) (reach : Nat)
    (rest : List (Option Track)) (cs : List Candidate) :
    matchSlots f reach (o :: rest) cs = (o :: (matchSlots f reach rest cs).1, (matchSlots f reach rest cs).2) := by
  cases o with
  | none => rfl
  | some t => rw [matchSlots, if_neg (ho t rfl)]

/-- A track of the surface with no candidate within reach is unmatched (R23). -/
theorem matchSlots_unmatched {f : Surface} {reach : Nat} {t : Track} {cs : List Candidate} (hf : t.surface = f)
    (h : nearest t.x t.y reach cs = none) (rest : List (Option Track)) :
    matchSlots f reach (some t :: rest) cs =
      (some t.unmatched :: (matchSlots f reach rest cs).1, (matchSlots f reach rest cs).2) := by
  rw [matchSlots, if_pos hf, h]

/-- A track of the surface takes its nearest candidate from those left (R22, R23). -/
theorem matchSlots_matched {f : Surface} {reach : Nat} {t : Track} {cs : List Candidate} {i d : Nat} {c : Candidate}
    (hf : t.surface = f) (h : nearest t.x t.y reach cs = some (i, d)) (hc : cs[i]? = some c)
    (rest : List (Option Track)) :
    matchSlots f reach (some t :: rest) cs =
      (some (t.matchedTo c) :: (matchSlots f reach rest (cs.eraseIdx i)).1,
        (matchSlots f reach rest (cs.eraseIdx i)).2) := by
  rw [matchSlots, if_pos hf, h]
  dsimp only
  rw [List.getD_eq_getElem?_getD, hc, Option.getD_some]

/-- Settles O21. -/
theorem matching : Obligations.Matching := by
  refine ⟨fun x y reach cs => ⟨fun i d h => ?_, (nearest_eq_none_iff x y reach cs).1⟩, fun f reach cs o rest =>
    ⟨rfl, fun ho => matchSlots_other ho reach rest cs, fun t ho hf h => ?_, fun t i d c ho hf h hc => ?_⟩⟩
  · obtain ⟨⟨c, hc, hd⟩, hr, hleast⟩ := nearest_eq_some h
    exact ⟨c, hc, hd, hr, hleast⟩
  · rw [ho, matchSlots_unmatched hf h]
    rfl
  · rw [ho, matchSlots_matched hf h hc]
    rfl

/-! ## The stages and the release -/

theorem Track.unheld_iff (t : Track) : t.unheld = true ↔ t.state = .tentative ∨ t.state = .live := by
  simp [Track.unheld]

theorem Track.ends_of_below {p : Profile} {t : Track} (h : t.missed < p.missLimit) : t.ends p = t :=
  if_neg (Nat.not_le.2 h)

theorem Track.ends_of_limit {p : Profile} {t : Track} (h : p.missLimit ≤ t.missed) : t.ends p = t.ending := if_pos h

theorem Track.ending_of_live {t : Track} (h : t.state = .live) :
    t.ending = { t with endMark := true, due := t.due ++ [.up] } := by
  rw [Track.ending, h]

theorem Track.ending_of_tentative {t : Track} (h : t.state = .tentative) :
    t.ending = if 2 ≤ t.matched then { t with endMark := true, state := .live, due := t.due ++ [.down, .up] }
      else { t with endMark := true } := by
  rw [Track.ending, h]

theorem Track.ending_of_held {t : Track} {r : HeldReason} (h : t.state = .held r) :
    t.ending = { t with endMark := true } := by
  rw [Track.ending, h]

/-- The release of one slot frees an ended track of the surface, clears the marks of its others, and leaves the other
surface's (R31). -/
theorem releaseSlot_some (f : Surface) (t : Track) :
    releaseSlot f (some t) =
      if t.surface = f then
        if t.endMark then none else some { t with matchedNow := false, bornNow := false, due := [], endMark := false }
      else some t := rfl

/-- Two stages one after the other are one stage, the first leaving every track on its surface. -/
theorem onTracks_onTracks {g h : Track → Track} (hh : ∀ t : Track, t.Keeps (h t)) (f : Surface)
    (slots : List (Option Track)) : onTracks f g (onTracks f h slots) = onTracks f (g ∘ h) slots := by
  have hsurface : ∀ t : Track, (h t).surface = t.surface := fun t => (hh t).2.1
  unfold onTracks
  rw [List.map_map]
  refine List.map_congr_left fun o _ => ?_
  cases o with
  | none => rfl
  | some t => by_cases hf : t.surface = f <;> simp [hf, hsurface]

/-- Stage 4 is one pass over the surface's tracks: retro-cancel if it is due, then the ongoing palm test (R28). -/
theorem reclassify_eq (f : Surface) (op : SenseOp) (slots : List (Option Track)) :
    reclassify f op slots =
      onTracks f (fun t => Track.ongoing op.profile (if f = .panel ∧ op.retroDue = true then t.retro op else t))
        slots := by
  unfold reclassify
  split
  · exact onTracks_onTracks (Track.retro_keeps op) f slots
  · rfl

theorem stagesFourToSix_eq (f : Surface) (op : SenseOp) (slots : List (Option Track)) :
    stagesFourToSix f op slots =
      onTracks f (fun t => Track.ends op.profile (Track.confirm op.profile (Track.ongoing op.profile
        (if f = .panel ∧ op.retroDue = true then t.retro op else t)))) slots := by
  have hstage4 : ∀ t : Track, t.Keeps
      (Track.ongoing op.profile (if f = .panel ∧ op.retroDue = true then t.retro op else t)) := by
    intro t
    split
    · exact (t.retro_keeps op).trans (Track.ongoing_keeps op.profile _)
    · exact t.ongoing_keeps op.profile
  rw [stagesFourToSix, onTracks_onTracks (Track.confirm_keeps op.profile), reclassify_eq, onTracks_onTracks hstage4]
  rfl

/-- Settles O25. -/
theorem trackStages : Obligations.TrackStages := by
  refine ⟨fun _ _ => rfl, fun op t => ?_, fun _ _ => rfl, fun p t => ⟨Track.ends_of_below, fun hm hs => ?_,
    fun hm hs h2 => ?_, fun hm hs h2 => ?_, fun r hm hs => ?_⟩,
    fun f t => ⟨fun hf he => ?_, fun hf he => ?_, fun hf => ?_, rfl⟩, stagesFourToSix_eq⟩
  · simp only [Track.retro, Track.unheld_iff]
  · rw [Track.ends_of_limit hm, Track.ending_of_live hs]
  · rw [Track.ends_of_limit hm, Track.ending_of_tentative hs, if_pos h2]
  · rw [Track.ends_of_limit hm, Track.ending_of_tentative hs, if_neg (Nat.not_le.2 h2)]
  · rw [Track.ends_of_limit hm, Track.ending_of_held hs]
  · rw [releaseSlot_some, if_pos hf, if_pos he]
  · rw [releaseSlot_some, if_pos hf, if_neg (by simp [he])]
  · rw [releaseSlot_some, if_neg hf]

end Sys2Proof.Machine
end

section
/-! PROOFS. The entries of a panel frame and their records (R32), forced ends (R36, R37, R47) and the completion of a sense
frame (R20, R31, R34, R35). -/

namespace Sys2Proof.Machine

/-! ## Tracks by ascending contact id -/

theorem insertById_eq (t : Track) (us : List Track) :
    insertById t us = us.orderedInsert (fun t u => t.id ≤ u.id) t := by
  induction us with
  | nil => rfl
  | cons u us ih => rw [insertById, List.orderedInsert_cons, ih]

theorem sortById_eq (ts : List Track) : sortById ts = ts.insertionSort (fun t u => t.id ≤ u.id) := by
  induction ts with
  | nil => rfl
  | cons t ts ih => rw [sortById, insertById_eq, ih, List.insertionSort_cons]

theorem sortById_perm (ts : List Track) : (sortById ts).Perm ts := by
  rw [sortById_eq]
  exact List.perm_insertionSort _ ts

theorem sortById_pairwise (ts : List Track) : (sortById ts).Pairwise (fun t u => t.id ≤ u.id) := by
  have htrans : IsTrans Track (fun t u => t.id ≤ u.id) := ⟨fun _ _ _ => Nat.le_trans⟩
  have htotal : Std.Total (fun t u : Track => t.id ≤ u.id) := ⟨fun t u => Nat.le_total t.id u.id⟩
  rw [sortById_eq]
  exact List.pairwise_insertionSort _ ts

/-! ## Cutting an entry list into records -/

/-- What the cutting of an entry list into parts keeps: their order, at most 20 in each, and 20 in all but the last. -/
structure CutInto (es : List Entry) (parts : List (List Entry)) : Prop where
  flatten : parts.flatten = es
  bounds : ∀ part ∈ parts, 1 ≤ part.length ∧ part.length ≤ 20
  full : ∀ part ∈ parts.dropLast, part.length = 20

theorem CutInto.nil : CutInto [] [] := ⟨rfl, by simp, by simp⟩

/-- One more part in front: the first 20 entries, or all of them if there are fewer. -/
theorem CutInto.cons {es : List Entry} {parts : List (List Entry)} (hes : es ≠ [])
    (h : CutInto (es.drop 20) parts) : CutInto es (es.take 20 :: parts) := by
  obtain ⟨hflat, hbounds, hfull⟩ := h
  have hpos : 0 < es.length := List.length_pos_iff.2 hes
  refine ⟨by rw [List.flatten_cons, hflat, List.take_append_drop], ?_, ?_⟩
  · rw [List.forall_mem_cons, List.length_take]
    exact ⟨by omega, hbounds⟩
  · cases parts with
    | nil => simp
    | cons part parts =>
      have hpart := (hbounds part List.mem_cons_self).1
      have hlen := congrArg List.length hflat
      rw [List.flatten_cons, List.length_append, List.length_drop] at hlen
      rw [List.dropLast_cons_of_ne_nil (List.cons_ne_nil _ _), List.forall_mem_cons, List.length_take]
      exact ⟨by omega, hfull⟩

theorem cutEntries_cut (time : Half) (fuel : Nat) (es : List Entry) (h : es.length ≤ fuel) :
    ∃ parts, cutEntries time fuel es = parts.map (Record.contactFrame time) ∧ CutInto es parts := by
  induction fuel generalizing es with
  | zero =>
    obtain rfl : es = [] := List.length_eq_zero_iff.1 (Nat.le_zero.1 h)
    exact ⟨[], rfl, CutInto.nil⟩
  | succ fuel ih =>
    cases es with
    | nil => exact ⟨[], rfl, CutInto.nil⟩
    | cons e es =>
      obtain ⟨parts, hparts, hcut⟩ := ih ((e :: es).drop 20) (by simp at h ⊢; omega)
      exact ⟨(e :: es).take 20 :: parts, by rw [cutEntries, hparts, List.map_cons], hcut.cons (List.cons_ne_nil _ _)⟩

/-! ## Entries -/

theorem Track.moved_iff (t : Track) :
    t.moved = true ↔ t.state = .live ∧ t.due = [] ∧ (t.x ≠ t.lastX ∨ t.y ≠ t.lastY) := by
  simp [Track.moved, and_assoc]

/-- Settles O26. -/
theorem contactEntries : Obligations.ContactEntries := by
  refine ⟨fun t => ?_, fun t => ?_, fun _ _ => rfl, fun slots => ⟨_, rfl, sortById_pairwise _, sortById_perm _⟩,
    fun time es => ?_⟩
  · simp only [Track.entries, Track.moved_iff]
    rfl
  · rw [← Track.moved_iff, ← List.contains_iff_mem]
    exact ⟨fun h => if_pos h, fun h => if_neg h⟩
  · obtain ⟨parts, hparts, hflat, hbounds, hfull⟩ := cutEntries_cut time es.length es (Nat.le_refl _)
    exact ⟨parts, hparts, hflat, hbounds, hfull⟩

/-! ## Forced ends -/

theorem State.requestForcedEnd_of_busy {s : State} {f : Surface} (h : (s.unit f).op ≠ none) :
    s.requestForcedEnd f = s.setUnit f { s.unit f with forcedPending := true } :=
  if_neg (by simpa using h)

theorem State.requestForcedEnd_of_idle {s : State} {f : Surface} (h : (s.unit f).op = none) :
    s.requestForcedEnd f = s.takeForcedEnd f := if_pos (by simp [h])

theorem State.forcedEnd_isDue {s : State} {f : Surface} (ho : (s.unit f).op = none)
    (hp : (s.unit f).forcedPending = true) : s.isDue (.forcedEnd f) = true := by
  simp [State.isDue, ho, hp]

/-- R47's release is made at a pad forced end that owes it while a button is pressed. -/
theorem State.releaseAtEnd_pad_iff (s : State) :
    s.releaseAtEnd .pad = true ↔ s.gesture.releaseOwed = true ∧ s.gesture.button ≠ .none := by
  simp [State.releaseAtEnd]

theorem State.releaseAtEnd_panel (s : State) : s.releaseAtEnd .panel = false := rfl

theorem State.forcedEndGroup_panel (s : State) :
    s.forcedEndGroup .panel =
      (contactFrames s.panel.lastTime (cancelEntries s.tracks.slots) ++ s.panel.context.cancelRecords .panel).map
        (.data .panel) := by
  rw [State.forcedEndGroup, State.releaseAtEnd_panel, if_neg Bool.false_ne_true, List.append_nil, List.map_append]
  rfl

theorem State.forcedEndGroup_pad (s : State) :
    s.forcedEndGroup .pad =
      (s.pad.context.cancelRecords .pad ++
        (if s.gesture.releaseOwed = true ∧ s.gesture.button ≠ .none then
          [Record.pointer 0 0 { left := false, right := false, middle := false }] else [])).map (.data .pad) := by
  simp only [State.forcedEndGroup, State.releaseAtEnd_pad_iff, List.nil_append, List.map_append]
  congr 1
  split <;> rfl

/-- The LIVE panel tracks in slot order, from which the CANCEL entries are sorted. -/
theorem live_panel_tracks (slots : List (Option Track)) :
    (tracksOf .panel slots).filter (fun t => t.state == .live) =
      slots.filterMap (fun o => o.bind (fun t => if t.surface = .panel ∧ t.state = .live then some t else none)) := by
  rw [tracksOf, List.filter_filterMap]
  refine List.filterMap_congr fun o _ => ?_
  cases o with
  | none => rfl
  | some t => by_cases hf : t.surface = .panel <;> by_cases hl : t.state = .live <;> simp [hf, hl, Option.filter]

theorem Context.cancelRecords_of_active {c : Context} {w : Winner} (h : c.state = .active) (hw : c.winner = some w)
    (f : Surface) : c.cancelRecords f = [gestureRecord f w.rule .cancel c c.progress] := by
  rw [Context.cancelRecords, h, hw]

theorem Context.cancelRecords_of_not_active {c : Context} (h : c.state ≠ .active) (f : Surface) :
    c.cancelRecords f = [] := by
  unfold Context.cancelRecords
  split
  · exact absurd ‹_› h
  · rfl

theorem mem_freeSurface_iff (f : Surface) (slots : List (Option Track)) (t : Track) :
    some t ∈ freeSurface f slots ↔ some t ∈ slots ∧ t.surface ≠ f := by
  constructor
  · intro h
    obtain ⟨o, ho, he⟩ := List.mem_map.1 h
    cases o with
    | none => cases he
    | some u =>
      dsimp only at he
      split at he
      · cases he
      · cases he
        exact ⟨ho, by assumption⟩
  · rintro ⟨ht, hf⟩
    exact List.mem_map.2 ⟨some t, ht, if_neg hf⟩

/-- Settles O28. -/
theorem forcedEnds : Obligations.ForcedEnds := by
  refine ⟨fun f s => ⟨State.requestForcedEnd_of_busy, State.requestForcedEnd_of_idle, fun hr ho hp => ?_⟩, fun s => ?_,
    fun s => ?_, fun slots => ⟨_, rfl, sortById_pairwise _, ?_⟩, fun f c => ⟨fun w ha hw => ?_, fun ha => ?_⟩,
    mem_freeSurface_iff⟩
  · rw [exec_forcedEnd hr f (State.forcedEnd_isDue ho hp), State.perform]
  · rw [State.takeForcedEnd, State.forcedEndGroup_panel]
    rfl
  · rw [State.takeForcedEnd, State.forcedEndGroup_pad]
    rfl
  · rw [← live_panel_tracks]
    exact sortById_perm _
  · rw [Context.cancelRecords_of_active ha hw]
    rfl
  · exact Context.cancelRecords_of_not_active ha f

/-! ## The completion of a sense frame -/

theorem State.completeSense_of_waiting {s : State} {f : Surface} {op : SenseOp} (ho : (s.unit f).op = some op)
    (hw : op.waiting ≠ []) : s.completeSense f = s := by
  simp [State.completeSense, ho, hw]

/-- Once every request is answered: after stages 4 to 7, stage 8, the offer group, the release and the report (R35). -/
theorem State.completeSense_of_answered {s v : State} {f : Surface} {op : SenseOp} {gestures : List Record}
    (ho : (s.unit f).op = some op) (hw : op.waiting = []) (hv : s.stagesToSeven f op = (v, gestures)) :
    s.completeSense f =
      State.reportSense
        (((v.stageEight f op).offer (v.completionGroup f op gestures)).releaseSense f op) op := by
  simp [State.completeSense, ho, hw, hv]

/-- Stages 4 to 7 leave the surface's episode mark. -/
theorem State.exhausted_of_stagesToSeven {s v : State} {f : Surface} {op : SenseOp} {gestures : List Record}
    (hv : s.stagesToSeven f op = (v, gestures)) : (v.unit f).exhausted = (s.unit f).exhausted := by
  have h : GestureFrame f (s.setSlots (stagesFourToSix f op s.tracks.slots)) (s.stagesToSeven f op).1 :=
    gestureStep_frame _ _ _ _ _ _
  rw [hv] at h
  rw [h.unit]
  cases f <;> rfl

theorem State.exhaustEvents_eq (s : State) (f : Surface) (op : SenseOp) :
    s.exhaustEvents f op =
      if op.discards ≠ 0 ∧ (s.unit f).exhausted = false then [.trackExhaust f op.discards] else [] := by
  simp only [State.exhaustEvents, Nat.pos_iff_ne_zero]

theorem overrunEvents_eq (stream : FrameStream) (tally : Nat) :
    overrunEvents stream tally = if tally ≠ 0 then [.frameOverrun stream tally] else [] := by
  rw [overrunEvents, ite_not]

theorem State.releaseSense_eq (s : State) (f : Surface) (op : SenseOp) :
    s.releaseSense f op =
      { s.setUnit f { s.unit f with op := none, exhausted := decide (op.discards ≠ 0) } with
        tracks := { s.tracks with slots := releaseSlots f s.tracks.slots },
        store := { s.store with holds := s.store.holds - 1 },
        gesture := { s.gesture with clickView :=
          match f with | .pad => clickPositions (releaseSlots f s.tracks.slots) | .panel => s.gesture.clickView } } := by
  rw [← decide_eq_decide.2 Nat.pos_iff_ne_zero]
  rfl

theorem State.reportSense_eq (s : State) (op : SenseOp) :
    s.reportSense op = if op.frame.candidates = [] then s else s.reportReturn := by
  simp only [State.reportSense, List.isEmpty_iff]

/-- Stage 8 on the panel: the contact records, and the positions reported in them (R32). -/
theorem stageEight_panel (s : State) (op : SenseOp) :
    s.composed .panel op = contactFrames op.frame.time (entryList s.tracks.slots) ∧
      s.stageEight .panel op =
        { s with tracks := { s.tracks with slots := onTracks .panel Track.reported s.tracks.slots } } := ⟨rfl, rfl⟩

/-- Stage 8 on the pad: the pointer's motion and its record, if there is one to carry (R34, R110). -/
theorem stageEight_pad (s : State) (op : SenseOp) :
    ∃ (p : PointerRecord) (dx dy : Int),
      (p, dx, dy) = pointerStep s.gesture.pointer s.pad.context s.tracks.slots op.profile.gain ∧
        s.composed .pad op = (if dx = 0 ∧ dy = 0 then [] else [Record.pointer dx dy s.gesture.button.buttons]) ∧
        s.stageEight .pad op = { s with gesture := { s.gesture with pointer := p } } :=
  ⟨(s.padMotion op).1, (s.padMotion op).2.1, (s.padMotion op).2.2, rfl, rfl, rfl⟩

/-- Settles O27. -/
theorem senseFrameCompletion : Obligations.SenseFrameCompletion := by
  intro f op s hq ho
  refine ⟨fun hw => ?_, fun hw => ?_⟩
  · rw [exec_senseFrameCompletion hq, State.completeSense_of_waiting ho hw]
  · rcases hv : s.stagesToSeven f op with ⟨v, gestures⟩
    refine ⟨v, v.stageEight f op, (v.stageEight f op).offer (v.completionGroup f op gestures),
      ((v.stageEight f op).offer (v.completionGroup f op gestures)).releaseSense f op, gestures, v.composed f op,
      v.exhaustEvents f op ++ overrunEvents (senseStream f) op.tally, hv.symm, ?_, ?_, ?_, rfl,
      State.releaseSense_eq _ f op, ?_⟩
    · rintro rfl
      exact stageEight_panel v op
    · rintro rfl
      exact stageEight_pad v op
    · rw [State.exhaustEvents_eq, State.exhausted_of_stagesToSeven hv, overrunEvents_eq]
    · rw [exec_senseFrameCompletion hq, State.completeSense_of_answered ho hw hv, State.reportSense_eq]

end Sys2Proof.Machine
end

section
/-! PROOFS. Zone lookups, the KEYACT and BTN lines, the changes of the enables in force and of the links' settings
(chapter 3, R88, R112, R137, R138). -/

namespace Sys2Proof.Machine

/-! ## Rows as a reader uses them -/

/-- A reader uses the inert row bytes of a row that is faulted or marked inert, else the bytes stored (R132). -/
theorem StoredRow.used_view (t : Table) (r : StoredRow) :
    (r.view t).used t = if r.integrity = .uncorrectable ∨ r.inert = true then defaultRow t else r.bytes := by
  unfold StoredRow.view RowView.used
  cases r.integrity <;> cases r.inert <;> rfl

/-- The ZONE row of a number as a lookup reads it. -/
def State.zoneRow (s : State) (n : Nat) : ZoneRow :=
  zoneOf (((s.store.row .zone (s.store.active .zone) n).view .zone).used .zone)

/-- A lookup reads every row of the page as it stood before the lookup. -/
theorem State.lookup_eq (s : State) (f : Surface) (x y posture : Nat) :
    s.lookup f x y posture = governing f x y ((pageRows posture).map s.zoneRow) := by
  have hrows := congrArg (List.map zoneOf) (State.viewRows_used .zone (s.store.active .zone) (pageRows posture) s)
  rw [List.map_map, List.map_map] at hrows
  exact congrArg (governing f x y) hrows

/-! ## The governing kind -/

theorem ZoneKind.rank_inj {k m : ZoneKind} (h : k.rank = m.rank) : k = m := by
  cases k <;> cases m <;> first | rfl | cases h

theorem ZoneRow.contains_iff (z : ZoneRow) (f : Surface) (x y : Nat) :
    z.contains f x y = true ↔
      z.kind ≠ .none ∧ z.surface = some f ∧ z.xLo ≤ x ∧ x < z.xHi ∧ z.yLo ≤ y ∧ y < z.yHi := by
  simp [ZoneRow.contains, and_assoc]

/-- The governing kind is NONE, or that of a row that contains the point. -/
theorem governing_eq_none_or (f : Surface) (x y : Nat) (zs : List ZoneRow) :
    governing f x y zs = .none ∨ ∃ z ∈ zs, z.contains f x y = true ∧ governing f x y zs = z.kind := by
  induction zs with
  | nil => exact .inl rfl
  | cons z zs ih =>
    rw [governing]
    split
    · rename_i h
      exact .inr ⟨z, List.mem_cons_self, h.1, rfl⟩
    · refine ih.imp_right fun ⟨w, hw, hc, hk⟩ => ⟨w, List.mem_cons_of_mem _ hw, hc, hk⟩

/-- No row that contains the point is of a higher rank than the governing kind (R51). -/
theorem rank_le_governing {f : Surface} {x y : Nat} {zs : List ZoneRow} {z : ZoneRow} (hz : z ∈ zs)
    (hc : z.contains f x y = true) : z.kind.rank ≤ (governing f x y zs).rank := by
  induction zs with
  | nil => cases hz
  | cons w zs ih =>
    rw [governing]
    split
    · rename_i h
      obtain rfl | hz := List.mem_cons.1 hz
      · exact Nat.le_refl _
      · exact Nat.le_trans (ih hz) h.2
    · rename_i h
      obtain rfl | hz := List.mem_cons.1 hz
      · exact Nat.le_of_lt (Nat.lt_of_not_le fun hle => h ⟨hc, hle⟩)
      · exact ih hz

theorem governing_of_none {f : Surface} {x y : Nat} {zs : List ZoneRow} (h : ∀ z ∈ zs, z.contains f x y ≠ true) :
    governing f x y zs = .none :=
  (governing_eq_none_or f x y zs).resolve_right fun ⟨z, hz, hc, _⟩ => h z hz hc

/-- A containing row of the highest rank among those that contain the point gives the answer. -/
theorem governing_of_highest {f : Surface} {x y : Nat} {zs : List ZoneRow} {z : ZoneRow} (hz : z ∈ zs)
    (hc : z.contains f x y = true) (hmax : ∀ w ∈ zs, w.contains f x y = true → w.kind.rank ≤ z.kind.rank) :
    governing f x y zs = z.kind := by
  have hle := rank_le_governing hz hc
  obtain hn | ⟨w, hw, hcw, hk⟩ := governing_eq_none_or f x y zs
  · rw [hn] at hle ⊢
    exact ZoneKind.rank_inj (Nat.le_antisymm (Nat.zero_le _) hle)
  · exact ZoneKind.rank_inj (Nat.le_antisymm (hk ▸ hmax w hw hcw) hle)

theorem mem_page_iff (g : Nat → ZoneRow) (posture : Nat) (z : ZoneRow) :
    z ∈ (pageRows posture).map g ↔ ∃ i < 24, z = g (posture * 24 + i) := by
  simp [pageRows, eq_comm]

/-- Settles O41: the governing kind of the page's rows as they stood before the lookup. -/
theorem zoneLookup : Obligations.ZoneLookup := by
  intro s f x y posture zone holds rank hzone hholds hrank
  obtain rfl : zone = fun i => s.zoneRow (posture * 24 + i) := funext fun i => by
    rw [hzone i _ rfl, State.zoneRow, StoredRow.used_view]
    rfl
  obtain ⟨hblock, hpass, hrclick, hguard, hedge, hnone⟩ := hrank
  obtain rfl : rank = ZoneKind.rank := funext fun k => by cases k <;> assumption
  have hcontains : ∀ i, holds i ↔ i < 24 ∧ (s.zoneRow (posture * 24 + i)).contains f x y = true := fun i => by
    rw [hholds, ZoneRow.contains_iff]
  rw [State.lookup_eq]
  refine ⟨fun hno => governing_of_none fun z hz hc => ?_,
    fun i hi hmax => governing_of_highest ?_ ?_ fun z hz hc => ?_, rfl⟩
  · obtain ⟨i, hlt, rfl⟩ := (mem_page_iff _ _ _).1 hz
    exact hno i ((hcontains i).2 ⟨hlt, hc⟩)
  · exact (mem_page_iff _ _ _).2 ⟨i, ((hcontains i).1 hi).1, rfl⟩
  · exact ((hcontains i).1 hi).2
  · obtain ⟨j, hlt, rfl⟩ := (mem_page_iff _ _ _).1 hz
    exact hmax j ((hcontains j).2 ⟨hlt, hc⟩)

/-! ## The lookups of a press -/

theorem State.afterReads_active (t : Table) (k : Bank) (ns : List Nat) (s : State) (u : Table) :
    (State.afterReads t k ns s).store.active u = s.store.active u := by
  induction ns generalizing s with
  | nil => rfl
  | cons n ns ih =>
    obtain ⟨-, -, hactive, -⟩ := s.store.afterRead_kept t k n
    exact (ih _).trans (hactive u)

/-- A lookup leaves every ZONE row as the next one reads it. -/
theorem State.zoneRow_afterLookup (s : State) (posture n : Nat) : (s.afterLookup posture).zoneRow n = s.zoneRow n := by
  rw [State.zoneRow, State.afterLookup, State.afterReads_active, State.used_afterReads]
  rfl

theorem State.lookup_afterLookup (s : State) (f : Surface) (x y posture page : Nat) :
    (s.afterLookup page).lookup f x y posture = s.lookup f x y posture := by
  rw [State.lookup_eq, State.lookup_eq, funext (s.zoneRow_afterLookup page)]

theorem State.anyRclick_iff (posture : Nat) (ps : List (Nat × Nat)) (s : State) :
    s.anyRclick posture ps = true ↔ ∃ p ∈ ps, s.lookup .pad p.1 p.2 posture = .rclick := by
  induction ps generalizing s with
  | nil => simp [State.anyRclick]
  | cons p ps ih => simp [State.anyRclick, ih, State.lookup_afterLookup]

theorem State.afterLookups_gesture (posture : Nat) (ps : List (Nat × Nat)) (s : State) :
    (s.afterLookups posture ps).gesture = s.gesture := by
  induction ps generalizing s with
  | nil => rfl
  | cons p ps ih => exact (ih _).trans (State.afterReads_gesture _ _ _ s)

theorem Button.buttons_eq (b : Button) :
    b.buttons = { left := decide (b = .left), right := decide (b = .right), middle := false } := by
  cases b <;> rfl

theorem State.pressed_of_rclick {s : State}
    (h : ∃ p ∈ s.gesture.clickView, s.lookup .pad p.1 p.2 s.command.select = .rclick) : s.pressed = .right :=
  if_pos ((s.anyRclick_iff _ _).2 h)

theorem State.pressed_of_no_rclick {s : State}
    (h : ∀ p ∈ s.gesture.clickView, s.lookup .pad p.1 p.2 s.command.select ≠ .rclick) : s.pressed = .left :=
  if_neg fun hany => by
    obtain ⟨p, hp, hr⟩ := (s.anyRclick_iff _ _).1 hany
    exact h p hp hr

/-- A press that counts: the lookups are made, and the button is pressed with its record (R54, R112). -/
theorem State.pressButton_of_free {s : State} (hp : s.command.enables.pad = true) (hb : s.gesture.button = .none) :
    s.pressButton = State.offer
      { s.afterLookups s.command.select s.gesture.clickView with gesture := { s.gesture with button := s.pressed } }
      [.data .pad (.pointer 0 0 s.pressed.buttons)] := by
  rw [State.pressButton, if_pos ⟨hp, hb⟩]
  dsimp only
  rw [State.afterLookups_gesture]

theorem State.pressButton_ignored {s : State} (h : s.command.enables.pad = false ∨ s.gesture.button ≠ .none) :
    s.pressButton = s := by
  rw [State.pressButton, if_neg]
  rintro ⟨hp, hb⟩
  exact h.elim (fun hoff => by rw [hoff] at hp; cases hp) (fun hne => hne hb)

theorem State.releaseButton_of_pressed {s : State} (hp : s.command.enables.pad = true) (hb : s.gesture.button ≠ .none) :
    s.releaseButton = State.offer
      { s with gesture := { s.gesture with button := .none, releaseOwed := false } }
      [.data .pad (.pointer 0 0 { left := false, right := false, middle := false })] := by
  rw [State.releaseButton, if_pos ⟨hp, hb⟩]
  rfl

theorem State.releaseButton_ignored {s : State} (h : s.command.enables.pad = false ∨ s.gesture.button = .none) :
    s.releaseButton = s := by
  rw [State.releaseButton, if_neg]
  rintro ⟨hp, hb⟩
  exact h.elim (fun hoff => by rw [hoff] at hp; cases hp) hb

/-- Settles O42: the reads of a press's lookups change no later lookup. -/
theorem lineEvents : Obligations.LineEvents := by
  refine ⟨fun s hq => ⟨?_, exec_typingGuardExpiry hq⟩,
    fun s hq => ⟨fun hp hb => ?_, fun h => ?_, fun hp hb => ?_, fun h => ?_⟩⟩
  · rw [exec_keyact hq]
    rfl
  · refine ⟨_, s.pressed, rfl, State.pressed_of_rclick, State.pressed_of_no_rclick, ?_⟩
    rw [exec_btnPress hq, State.pressButton_of_free hp hb, Button.buttons_eq]
  · rw [exec_btnPress hq, State.pressButton_ignored h]
  · rw [exec_btnRelease hq, State.releaseButton_of_pressed hp hb]
  · rw [exec_btnRelease hq, State.releaseButton_ignored h]

/-! ## Enables in force and desired settings -/

theorem State.postureRow_eq (s : State) :
    s.postureRow = postureOf
      (if (s.store.row .posture (s.store.active .posture) s.command.select).integrity = .uncorrectable ∨
          (s.store.row .posture (s.store.active .posture) s.command.select).inert = true then defaultRow .posture
        else (s.store.row .posture (s.store.active .posture) s.command.select).bytes) := by
  rw [State.postureRow, State.activeBytes, State.viewRow, StoredRow.used_view]

theorem State.evaluateEnables_same (s : State) : s.evaluateEnables s.command.enables = s := if_pos rfl

theorem State.evaluateEnables_of_ne {s : State} {e : Enables} (h : e ≠ s.command.enables) :
    s.evaluateEnables e =
      (((s.withEnables e).disableWhen .pad (s.command.enables.pad && !e.pad)).disableWhen .panel
        (s.command.enables.panel && !e.panel)).evaluateScans :=
  if_neg h

/-- The effects of a pad disable (R44, R47). -/
theorem State.disable_pad (s : State) :
    s.disable .pad = State.requestForcedEnd
      { s with pad := { s.pad with slot := { frame := none, tally := 0 } },
               gesture := { s.gesture with releaseOwed := decide (s.gesture.button ≠ .none) } } .pad := by
  rw [show decide (s.gesture.button ≠ .none) = (s.gesture.button != .none) by cases s.gesture.button <;> rfl]
  rfl

/-- The effects of a panel disable (R44, R46). -/
theorem State.disable_panel (s : State) :
    s.disable .panel = State.requestDrop (State.requestForcedEnd
      { s with panel := { s.panel with slot := { frame := none, tally := 0 } },
               pen := { s.pen with slot := { frame := none, tally := 0 } } } .panel) := rfl

/-- A surface whose enable goes from yes to no is disabled. -/
theorem State.disableWhen_of_gone (s : State) (f : Surface) {was now : Bool} (hw : was = true) (hn : now = false) :
    s.disableWhen f (was && !now) = s.disable f := by
  subst hw hn
  rfl

theorem State.disableWhen_of_kept (s : State) (f : Surface) {was now : Bool} (h : was = false ∨ now = true) :
    s.disableWhen f (was && !now) = s := by
  obtain rfl | rfl := h
  · rfl
  · rw [Bool.not_true, Bool.and_false]
    rfl

/-- A link whose mode gives it a desired setting: commanded where it differs, except in settled SLEEP (R137, R138). -/
theorem State.evaluateScan_of_desired {s : State} {l : Surface} {v : Setting}
    (h : desiredSetting s.mode.mode (s.enabled l) = some v) :
    s.evaluateScan l =
      if (s.mode.mode = .sleep ∧ s.mode.transition = none) ∨ (s.link l).commanded = v then s
      else s.setLink l ((s.link l).giveScan v) := by
  rw [State.evaluateScan, State.scanNeeded, h]
  by_cases hs : s.mode.mode = .sleep ∧ s.mode.transition = none
  · rw [if_pos hs, if_pos (.inl hs)]
  · by_cases hv : (s.link l).commanded = v
    · simp [hs, hv]
    · simp [hs, hv, Ne.symm hv]

/-- WAKING gives no desired setting (R137). -/
theorem State.evaluateScan_of_waking {s : State} (h : s.mode.mode = .waking) (l : Surface) : s.evaluateScan l = s := by
  simp [State.evaluateScan, State.scanNeeded, h, desiredSetting]

/-- The desired setting of each mode but WAKING (R137). -/
theorem desiredSetting_eq_some {m : Mode} {enabled : Bool} {v : Setting} (hw : m ≠ .waking)
    (ha : m = .active → v = if enabled = true then .full else .off)
    (hi : m = .idle → v = if enabled = true then .reduced else .off)
    (hd : m = .doze → v = if enabled = true then .wakeOnTouch else .off)
    (hs : m = .sleep → v = .off) : desiredSetting m enabled = some v := by
  cases m with
  | sleep => rw [hs rfl]; rfl
  | waking => exact absurd rfl hw
  | active => rw [ha rfl]; rfl
  | idle => rw [hi rfl]; rfl
  | doze => rw [hd rfl]; rfl

/-- Settles O43: the disables one after another, then each link by its mode's desired setting. -/
theorem enableAndScanChanges : Obligations.EnableAndScanChanges := by
  refine ⟨fun s row hrow => ⟨rfl, rfl, ?_⟩, State.evaluateEnables_same, fun s e he => ?_,
    fun s l v ha hi hd hs => ⟨fun h => ?_, fun hw hn hv => ?_⟩, fun s => rfl⟩
  · subst hrow
    exact s.postureRow_eq
  · refine ⟨s.withEnables e, (s.withEnables e).disableWhen .pad (s.command.enables.pad && !e.pad), _, rfl,
      fun hw hn => ?_, State.disableWhen_of_kept _ _, fun hw hn => ?_, State.disableWhen_of_kept _ _,
      State.evaluateEnables_of_ne he⟩
    · rw [State.disableWhen_of_gone _ _ hw hn, State.disable_pad]
    · rw [State.disableWhen_of_gone _ _ hw hn, State.disable_panel]
  · by_cases hw : s.mode.mode = .waking
    · exact State.evaluateScan_of_waking hw l
    · rw [State.evaluateScan_of_desired (desiredSetting_eq_some hw ha hi hd hs), if_pos (h.resolve_left hw)]
  · rw [State.evaluateScan_of_desired (desiredSetting_eq_some hw ha hi hd hs), if_neg (not_or.2 ⟨hn, hv⟩)]
    rfl

end Sys2Proof.Machine
end

section
/-! PROOFS. IDENTIFY, GET_STATUS with the layout of its result, SET_POSTURE and LOCK_ZONES (R42, R48, R134, R171, R173). -/

namespace Sys2Proof.Machine

/-! ## The groups of a GET_STATUS result (11.4) -/

@[simp] theorem length_putU8 (n : Nat) : (putU8 n).length = 1 := rfl
@[simp] theorem length_putU16 (n : Nat) : (putU16 n).length = 2 := rfl
@[simp] theorem length_putU32 (n : Nat) : (putU32 n).length = 4 := rfl
@[simp] theorem Enables.length_byte (e : Enables) : e.byte.length = 1 := rfl
@[simp] theorem Link.length_byte (l : Link) : l.byte.length = 1 := rfl
@[simp] theorem Context.length_byte (c : Context) : c.byte.length = 1 := rfl
@[simp] theorem TableState.length_byte (t : TableState) : t.byte.length = 1 := rfl
@[simp] theorem PenGuard.length_bytes (g : PenGuard) : g.bytes.length = 11 := rfl
@[simp] theorem State.length_transitionByte (s : State) : s.transitionByte.length = 1 := rfl
@[simp] theorem ReportQueue.length_maskBytes (q : ReportQueue) : q.maskBytes.length = 6 := rfl
@[simp] theorem length_resyncBytes (r : Option Nat) : (resyncBytes r).length = 3 := rfl
@[simp] theorem State.length_counterBytes (s : State) : s.counterBytes.length = 20 := rfl

theorem Enables.byte_eq (e : Enables) : e.byte = putU8 (e.pad.toNat + 2 * e.panel.toNat + 4 * e.pen.toNat) := by
  simp only [Enables.byte, putFlags, List.foldr_cons, List.foldr_nil]
  congr 1
  omega

/-- The LIVE tracks of a surface, in slot order. -/
theorem liveCount_eq (f : Surface) (slots : List (Option Track)) :
    liveCount f slots =
      (slots.filterMap (fun o => o.bind (fun t => if t.surface = f ∧ t.state = .live then some t else none))).length := by
  rw [liveCount, tracksOf, List.filter_filterMap]
  congr 1
  refine List.filterMap_congr fun o _ => ?_
  cases o with
  | none => rfl
  | some t => by_cases hf : t.surface = f <;> by_cases hl : t.state = .live <;> simp [hf, hl, Option.filter]

/-- The transition byte: the transition in flight, or the mode code 7 with a free phase and cause (log entry 7). -/
theorem State.transitionByte_eq (s : State) :
    ∃ transition : Nat,
      (∀ t, s.mode.transition = some t → transition = t.target.code + 8 * t.phase.code + 16 * t.cause.code) ∧
      (s.mode.transition = none → ∃ free < 8, transition = 7 + 8 * free) ∧
      s.transitionByte = putU8 (transition + 128 * s.mode.dwell.isSome.toNat) := by
  rw [State.transitionByte]
  cases s.mode.transition with
  | none => exact ⟨_, nofun, fun _ => ⟨_, (Config.freeTransitionBits s.freeCount).isLt, rfl⟩, rfl⟩
  | some t => exact ⟨_, fun u hu => by cases hu; rfl, nofun, rfl⟩

/-- The load bytes: the open load, or 0xFF with four free bytes (log entry 7). -/
theorem State.loadBytes_of_load {s : State} {ld : OpenLoad} (h : s.store.load = some ld) :
    s.loadBytes = putU8 (tableCode ld.table) ++ putU8 ld.first ++ putU8 (ld.count.getD 0) ++ putU8 ld.cursor ++
      putU8 ld.written := by
  rw [State.loadBytes, h]

theorem State.loadBytes_head_of_none {s : State} (h : s.store.load = none) : s.loadBytes.head? = some 0xFF#8 := by
  rw [State.loadBytes, h]
  rfl

@[simp] theorem State.length_loadBytes (s : State) : s.loadBytes.length = 5 := by
  unfold State.loadBytes
  split <;> rfl

theorem PenUnit.serial_toNat (p : PenUnit) :
    p.serial.toNat = match p.followed with | some w => w.serial.toNat | none => 0 := by
  unfold PenUnit.serial
  cases p.followed <;> rfl

theorem PenUnit.sourceByte_eq (p : PenUnit) :
    p.sourceByte = putU8 (match p.followed with
      | some w => (match w.source with | .row n => n | .fallback => 8)
      | none => 0xFF) := by
  unfold PenUnit.sourceByte
  cases p.followed <;> rfl

@[simp] theorem PenUnit.length_sourceByte (p : PenUnit) : p.sourceByte.length = 1 := by
  rw [PenUnit.sourceByte_eq, length_putU8]

theorem length_faultEntries (es : List FaultEntry) : (es.map FaultEntry.bytes).flatten.length = 3 * es.length := by
  induction es with
  | nil => rfl
  | cons e es ih =>
    rw [List.map_cons, List.flatten_cons, List.length_append, ih, List.length_cons]
    have he : e.bytes.length = 3 := rfl
    omega

@[simp] theorem length_faultBytes (es : List FaultEntry) : (faultBytes es).length = 24 := by
  rw [faultBytes, List.length_take, List.length_append, List.length_replicate]
  omega

/-- Up to eight entries stand whole, and 0xFF fills the rest of the 24 bytes. -/
theorem faultBytes_eq {es : List FaultEntry} (h : es.length ≤ 8) :
    faultBytes es = (es.map FaultEntry.bytes).flatten ++ List.replicate (24 - 3 * es.length) 0xFF#8 := by
  have hl := length_faultEntries es
  rw [faultBytes, List.take_append, List.take_of_length_le (by omega), hl, List.take_replicate,
    Nat.min_eq_left (Nat.sub_le _ _)]

theorem State.length_status (s : State) : s.status.length = 102 := by
  unfold State.status
  simp [allTables]

/-! ## The commands -/

theorem State.runSetPosture_of_large {p : Bytes} (h : 4 ≤ u8At p 0) (s : State) :
    s.runSetPosture p = s.respond Command.setPosture.code .badArg [] := if_pos h

theorem State.runSetPosture_of_index {p : Bytes} (h : u8At p 0 < 4) {s u : State}
    (hu : u = State.consultPosture { s with command := { s.command with select := u8At p 0 } }) :
    s.runSetPosture p = u.respond Command.setPosture.code .done
      [BitVec.ofNat 8 u.command.select, BitVec.ofNat 8
        (u.command.enables.pad.toNat + 2 * u.command.enables.panel.toNat + 4 * u.command.enables.pen.toNat)] := by
  subst hu
  rw [State.runSetPosture, if_neg (Nat.not_le.2 h)]
  dsimp only
  rw [Enables.byte_eq]
  rfl

/-- A lock value that R134 does not list. -/
theorem State.runLockZones_of_unlisted {p : Bytes} (h : u8At p 0 ∉ [1, 2, 4, 8, 16, 24]) (s : State) :
    s.runLockZones p = s.respond Command.lockZones.code .badArg [] :=
  if_pos (by simpa using h)

/-- A listed lock value meets the tests of R134 in their order. -/
theorem State.runLockZones_of_listed {p : Bytes} (h : u8At p 0 ∈ [1, 2, 4, 8, 16, 24]) (s : State) :
    s.runLockZones p =
      if s.store.status .zone ≠ .clean then s.respond Command.lockZones.code .badState []
      else if u8At p 0 < s.store.lock then s.respond Command.lockZones.code .protectedZone []
      else State.respond { s with store := { s.store with lock := u8At p 0 } } Command.lockZones.code .done
        [BitVec.ofNat 8 (u8At p 0)] :=
  if_neg (by rw [List.contains_iff_mem.2 h]; exact Bool.false_ne_true)

theorem Config.revision_pos : 1 ≤ Config.revision.toNat := by
  have h : Config.revisionLessOne.val < 255 := Config.revisionLessOne.isLt
  rw [Config.revision, BitVec.toNat_ofNat]
  omega

/-- Settles O53: each command by its own rule, and GET_STATUS's result group by group. -/
theorem identityStatusPostureAndLock : Obligations.IdentityStatusPostureAndLock := by
  refine ⟨⟨Config.revision, Config.revision_pos, fun s hr => exec_identify hr [] rfl⟩,
    fun s hr => exec_getStatus hr [] rfl, ?_, fun p s u hr hl => ?_, fun p s hr hl => ?_⟩
  -- the layout of GET_STATUS: the statement's encoders are the model's
  · intro s yes mode link live context table resync hfaults hyes hmode hlink hlive hcontext htable hresync
    obtain rfl : yes = Bool.toNat := funext fun b => by rw [hyes]; cases b <;> rfl
    obtain rfl : mode = Mode.code := funext fun m => by rw [hmode]; cases m <;> rfl
    obtain rfl : resync = resyncBytes := funext fun r => hresync r
    obtain rfl : live = fun f => liveCount f s.tracks.slots := funext fun f => by rw [hlive, liveCount_eq]
    obtain rfl : link = fun l => l.state.code + 4 * l.commanded.code + 32 * l.scanChange.toNat :=
      funext fun l => hlink l
    obtain rfl : context = fun c => c.state.code + 16 * c.members.length := funext fun c => hcontext c
    obtain rfl : table = fun t => (s.store.table t).select.code + 2 * (s.store.table t).status.code :=
      funext fun t => htable t
    obtain ⟨transition, hsome, hnone, hbyte⟩ := s.transitionByte_eq
    refine ⟨transition, s.loadBytes, s.length_loadBytes, hsome, hnone, fun ld => State.loadBytes_of_load,
      State.loadBytes_head_of_none, s.length_status, ?_⟩
    unfold State.status
    rw [hbyte, faultBytes_eq hfaults, Enables.byte_eq, PenUnit.serial_toNat, PenUnit.sourceByte_eq]
    simp only [PenGuard.bytes, ReportQueue.maskBytes, List.append_assoc]
    rfl
  · have hlen : Command.setPosture.lengthOk p = true := beq_iff_eq.2 hl
    rw [exec_setPosture hr p hlen]
    refine ⟨fun h => ?_, fun h hu => ?_⟩
    · rw [State.runSetPosture_of_large h]
      rfl
    · rw [State.runSetPosture_of_index h hu]
  · have hlen : Command.lockZones.lengthOk p = true := beq_iff_eq.2 hl
    rw [exec_lockZones hr p hlen]
    refine ⟨fun h => ?_, fun h => ?_⟩
    · rw [State.runLockZones_of_unlisted h]
      rfl
    · rw [State.runLockZones_of_listed h, State.occupy_store]
      refine ⟨fun hs => ?_, fun hs hk => ?_, fun hs hk => ?_⟩
      · rw [if_pos hs]
        rfl
      · rw [if_neg (not_not_intro hs), if_pos hk]
        rfl
      · rw [if_neg (not_not_intro hs), if_neg (Nat.not_lt.2 hk)]
        rfl

end Sys2Proof.Machine
end

section
/-! PROOFS. The pen: the Pen Record through every step (R56), a frame's evaluation and its records (R58 to R70), drops
and the linger timer (R68, R71, R72); and the birth classification (R67, R78, R83). -/

namespace Sys2Proof.Machine

/-! ## The Pen Record through every step -/

theorem State.softResetEffect_pen (s : State) : s.softResetEffect.pen = PenUnit.reset := rfl

theorem State.assertReset_pen (s : State) : s.assertReset.pen = PenUnit.reset := rfl

theorem State.releaseReset_pen (s : State) : s.releaseReset.pen = s.pen := by
  unfold State.releaseReset
  split <;> rfl

theorem State.powerOn_pen (s : State) : s.powerOn.pen = PenUnit.reset := rfl

theorem PenInv.reset : PenInv PenUnit.reset := PenInv.absent PenUnit.reset

theorem PenInv.perform {s : State} (h : PenInv s.pen) (d : Due) : PenInv (s.perform d).pen := by
  by_cases hr : d = .softReset
  · subst hr
    rw [State.perform, State.softResetEffect_pen]
    exact PenInv.reset
  · exact (perform_keeps s d hr).pen h

theorem PenInv.effectOf {s : State} (h : PenInv s.pen) (c : Instr) : PenInv (effectOf c s).pen := by
  by_cases hb : ∃ who, c = .slotRequest who
  · obtain ⟨who, rfl⟩ := hb
    obtain ⟨-, -, hpen, -⟩ := allocate_keeps s who
    show PenInv (s.allocate who).pen
    rwa [hpen]
  · exact (effectOf_keeps c (fun who hc => hb ⟨who, hc⟩) s).pen h

/-- Settles O39: every at-once step, effect and reset keeps the relation of R56. -/
theorem penRecordKept : Obligations.PenRecordKept := by
  intro s t h hs
  refine step_keeps (P := fun s => PenInv s.pen) (fun s d h _ => h.perform d) (fun s h => ?_)
    (fun c s h => h.effectOf c) (fun s _ => ?_) (fun s h => ?_) (fun s _ => ?_) (fun s q h => ?_)
    (fun s h => (Moves.enterWaiting s).pen h) h hs
  · rwa [State.finish_pen]
  · rw [State.assertReset_pen]
    exact PenInv.reset
  · rwa [State.releaseReset_pen]
  · rw [State.powerOn_pen]
    exact PenInv.reset
  · rwa [State.withPending_pen]

/-! ## Birth classification -/

theorem PenGuard.covers_iff (g : PenGuard) (x y : Nat) :
    g.covers x y = true ↔ g.active = true ∧ g.xMin ≤ x ∧ x ≤ g.xMax ∧ g.yMin ≤ y ∧ y ≤ g.yMax := by
  simp [PenGuard.covers, and_assoc]

theorem mem_tracksOf_iff (f : Surface) (slots : List (Option Track)) (t : Track) :
    t ∈ tracksOf f slots ↔ some t ∈ slots ∧ t.surface = f := by
  rw [tracksOf, List.mem_filterMap]
  constructor
  · rintro ⟨_ | u, ho, hu⟩
    · cases hu
    · obtain ⟨hf, rfl⟩ : u.surface = f ∧ u = t := by simpa using hu
      exact ⟨ho, hf⟩
  · rintro ⟨ho, hf⟩
    exact ⟨some t, ho, by simp [hf]⟩

theorem Track.palmSource_iff (t : Track) :
    t.palmSource = true ↔ t.state = .held .palm ∨ t.state = .held .nearPalm := by
  simp [Track.palmSource]

/-- The neighbour test's source, among the tracks of the surface (R83). -/
theorem nearPalm_iff (f : Surface) (radius x y : Nat) (slots : List (Option Track)) :
    nearPalm f radius x y slots = true ↔
      ∃ t, some t ∈ slots ∧ t.surface = f ∧ (t.state = .held .palm ∨ t.state = .held .nearPalm) ∧
        sqDist x y t.x t.y ≤ radius * radius := by
  simp only [nearPalm, List.any_eq_true, mem_tracksOf_iff, Bool.and_eq_true, Track.palmSource_iff, decide_eq_true_eq,
    and_assoc]

/-- Settles O24. -/
theorem birthClassification : Obligations.BirthClassification := by
  refine fun f op zone slots c => ⟨?_, nearPalm_iff _ _ _ _ _⟩
  simp only [classify, PenGuard.covers_iff]

/-! ## Drops and the linger timer -/

theorem PenUnit.near_iff (p : PenUnit) : p.near = true ↔ p.state = .hover ∨ p.state = .ink := by
  simp [PenUnit.near]

theorem PenUnit.near_of_far {p : PenUnit} (h : p.state = .absent ∨ p.state = .linger) : p.near = false := by
  rcases h with h | h <;> rw [PenUnit.near, h] <;> rfl

theorem PenUnit.serial_of_followed {p : PenUnit} {w : Followed} (h : p.followed = some w) : p.serial = w.serial := by
  rw [PenUnit.serial, h]

/-- The leaving record carries the last sample's leaving values (R70). -/
theorem PenUnit.leavingRecord_of_sample {p : PenUnit} {q : PenSample} (h : p.lastSample = some q) (st : PenState) :
    p.leavingRecord st = .pen st q.leaving := by
  rw [PenUnit.leavingRecord, h]
  rfl

theorem PenUnit.dropGroup_of_far {p : PenUnit} (h : p.state = .absent ∨ p.state = .linger) : p.dropGroup = [] := by
  rw [PenUnit.dropGroup, PenUnit.near_of_far h]
  rfl

theorem PenUnit.dropGroup_of_near {p : PenUnit} {w : Followed} {q : PenSample} (h : p.state = .hover ∨ p.state = .ink)
    (hw : p.followed = some w) (hq : p.lastSample = some q) :
    p.dropGroup = [.data .pen (.pen .absent q.leaving), .event (.penLeave w.serial .dropped)] := by
  rw [PenUnit.dropGroup, if_pos (p.near_iff.2 h), PenUnit.leavingRecord_of_sample hq, PenUnit.serial_of_followed hw]

theorem State.requestDrop_of_busy {s : State} (h : s.pen.op ≠ none) :
    s.requestDrop = { s with pen := { s.pen with dropPending := true } } :=
  if_neg (by rwa [Option.isNone_iff_eq_none])

theorem State.requestDrop_of_idle {s : State} (h : s.pen.op = none) : s.requestDrop = s.takeDrop :=
  if_pos (by rw [h]; rfl)

theorem State.penDrop_isDue {s : State} (ho : s.pen.op = none) (hd : s.pen.dropPending = true) :
    s.isDue .penDrop = true := by
  simp [State.isDue, ho, hd]

theorem State.expireLinger_of_running {s : State} (h : s.pen.linger ≠ none) :
    s.expireLinger = { s with pen := s.pen.absent } :=
  if_pos (Option.isSome_iff_ne_none.2 h)

theorem State.expireLinger_of_stopped {s : State} (h : s.pen.linger = none) : s.expireLinger = s :=
  if_neg (by rw [h]; exact Bool.false_ne_true)

/-- Settles O38. -/
theorem penDropAndLinger : Obligations.PenDropAndLinger := by
  refine fun s => ⟨s.pen.absent, rfl, State.requestDrop_of_busy, State.requestDrop_of_idle, fun hr ho hd => ?_,
    fun h => ?_, fun w p h hw hp => ?_, fun hq hl => ?_, fun hq hl => ?_⟩
  · exact exec_penDrop hr (State.penDrop_isDue ho hd)
  · rw [State.takeDrop, PenUnit.dropGroup_of_far h]
    rfl
  · rw [State.takeDrop, PenUnit.dropGroup_of_near h hw hp]
    rfl
  · rw [exec_lingerExpiry hq, State.expireLinger_of_running hl]
  · rw [exec_lingerExpiry hq, State.expireLinger_of_stopped hl]

/-! ## Which rule governs a pen frame (R60) -/

section
variable {p : PenUnit} {op : PenOp}

theorem PenUnit.action_of_disabled (he : op.enabled = false) : p.action op = .disabled := if_pos he

theorem PenUnit.action_of_enabled (he : op.enabled = true) :
    p.action op =
      if op.frame.inRange = false then (if p.near then .leaves else .nothing)
      else if p.near = false then .lookup
      else if op.frame.serial ≠ p.serial then .conflict
      else if p.refreshDue then .lookup
      else .continue :=
  if_neg (by rw [he]; exact Bool.noConfusion)

theorem PenUnit.action_of_far_out (he : op.enabled = true) (hr : op.frame.inRange = false)
    (h : p.state = .absent ∨ p.state = .linger) : p.action op = .nothing := by
  simp [PenUnit.action_of_enabled he, hr, PenUnit.near_of_far h]

theorem PenUnit.action_of_near_out (he : op.enabled = true) (hr : op.frame.inRange = false)
    (h : p.state = .hover ∨ p.state = .ink) : p.action op = .leaves := by
  simp [PenUnit.action_of_enabled he, hr, p.near_iff.2 h]

theorem PenUnit.action_of_far_in (he : op.enabled = true) (hr : op.frame.inRange = true)
    (h : p.state = .absent ∨ p.state = .linger) : p.action op = .lookup := by
  simp [PenUnit.action_of_enabled he, hr, PenUnit.near_of_far h]

theorem PenUnit.action_of_near_in (he : op.enabled = true) (hr : op.frame.inRange = true)
    (h : p.state = .hover ∨ p.state = .ink) :
    p.action op =
      if op.frame.serial ≠ p.serial then .conflict else if p.refreshDue = true then .lookup else .continue := by
  simp [PenUnit.action_of_enabled he, hr, p.near_iff.2 h]

end

/-! ## The Pen Record after a frame -/

/-- A take-up clears the conflict (R61). -/
theorem PenUnit.acted_of_far {p : PenUnit} (h : p.state = .absent ∨ p.state = .linger) (f : PenFrame) (w : Followed) :
    p.acted f w =
      { p with state := penStateFor f w.profile, followed := some w, lastSample := some f.sample, linger := none,
               conflict := false, guard := guardFor p.guard p.state f w.profile } := by
  rw [PenUnit.acted, PenUnit.near_of_far h]
  rfl

/-- A continuation keeps the conflict (R62). -/
theorem PenUnit.acted_of_near {p : PenUnit} (h : p.state = .hover ∨ p.state = .ink) (f : PenFrame) (w : Followed) :
    p.acted f w =
      { p with state := penStateFor f w.profile, followed := some w, lastSample := some f.sample, linger := none,
               guard := guardFor p.guard p.state f w.profile } := by
  rw [PenUnit.acted, p.near_iff.2 h]
  rfl

/-- A continuation under the profile the pen has (R62). -/
theorem PenUnit.acted_of_continue {p : PenUnit} {w : Followed} (h : p.state = .hover ∨ p.state = .ink)
    (hw : p.followed = some w) (f : PenFrame) :
    p.acted f w =
      { p with state := penStateFor f w.profile, lastSample := some f.sample, linger := none,
               guard := guardFor p.guard p.state f w.profile } := by
  rw [PenUnit.acted_of_near h, ← hw]

/-- A pen that left range lingers under its guard (R64). -/
theorem PenUnit.left_of_lingering {p : PenUnit} {w : Followed} (hw : p.followed = some w) (hg : p.guard.active = true)
    (hl : 0 < w.profile.linger) :
    p.left = { p with state := .linger, conflict := false, linger := some (10 * w.profile.linger) } := by
  rw [PenUnit.left, hw]
  exact if_pos ⟨hg, hl⟩

theorem PenUnit.left_of_gone {p : PenUnit} {w : Followed} (hw : p.followed = some w)
    (h : p.guard.active = false ∨ w.profile.linger = 0) : p.left = p.absent := by
  rw [PenUnit.left, hw]
  refine if_neg ?_
  rintro ⟨hg, hl⟩
  rcases h with h | h
  · rw [h] at hg
    cases hg
  · omega

/-! ## A frame's completion (R65) -/

/-- The completion once the frame is evaluated: its records offered, the report to the Mode Engine, the release. -/
def State.penDone (op : PenOp) (u : State) (group : List Offer) : State :=
  State.finish (State.releasePen (State.reportPen (u.offer (group ++ (overrunEvents .pen op.tally).map .event)) op))

theorem overrunOffers_eq (stream : FrameStream) (tally : Nat) :
    (overrunEvents stream tally).map Offer.event = if tally = 0 then [] else [.event (.frameOverrun stream tally)] := by
  rw [overrunEvents]
  split <;> rfl

/-- A completion by the state and the records that its frame's evaluation gives. -/
theorem exec_penFrameCompletion_of_op {s u : State} {op : PenOp} {group : List Offer} (hq : Quiet s)
    (ho : s.pen.op = some op) (hu : s.penEvaluate op = u) (hg : s.penGroup u op = group) :
    exec .penFrameCompletion s = .next (State.penDone op u group) := by
  subst hu hg
  rw [exec_penFrameCompletion hq, State.completePen, ho]
  rfl

theorem PenUnit.enters_of_far {p : PenUnit} (h : p.state = .absent ∨ p.state = .linger) (f : PenFrame) :
    (!p.near && p.enters f) = decide (p.state = .absent ∨ f.serial ≠ p.serial) := by
  rw [Bool.eq_iff_iff, PenUnit.near_of_far h, PenUnit.enters]
  rcases h with h | h <;> simp [h]

section
variable {s : State} {op : PenOp}

theorem State.penEvaluate_of_disabled (he : op.enabled = false) :
    s.penEvaluate op = { s with pen := if s.pen.state = .absent then s.pen else s.pen.absent } := by
  rw [State.penEvaluate, PenUnit.action_of_disabled he]

theorem State.penGroup_of_disabled (he : op.enabled = false) (u : State) :
    s.penGroup u op =
      if s.pen.near = true then [.data .pen (s.pen.leavingRecord .absent), .event (.penLeave s.pen.serial .disabled)]
      else [] := by
  rw [State.penGroup, PenUnit.action_of_disabled he]

theorem State.penEvaluate_of_leaves (ha : s.pen.action op = .leaves) :
    s.penEvaluate op = { s with pen := s.pen.left } := by
  rw [State.penEvaluate, ha]

theorem State.penGroup_of_leaves (ha : s.pen.action op = .leaves) (u : State) :
    s.penGroup u op = [.data .pen (s.pen.leavingRecord u.pen.state), .event (.penLeave s.pen.serial .range)] := by
  rw [State.penGroup, ha]

theorem State.penEvaluate_of_lookup (ha : s.pen.action op = .lookup) :
    s.penEvaluate op = { s.afterPenLookup with
      pen := { s.pen.acted op.frame (s.lookupPen op.frame.serial) with refreshDue := false } } := by
  rw [State.penEvaluate, ha]

theorem State.penGroup_of_lookup (ha : s.pen.action op = .lookup) (u : State) :
    s.penGroup u op = actedGroup (!s.pen.near && s.pen.enters op.frame) op.frame u.pen.state := by
  rw [State.penGroup, ha]

theorem State.penEvaluate_of_continue {w : Followed} (ha : s.pen.action op = .continue) (hw : s.pen.followed = some w) :
    s.penEvaluate op = { s with pen := s.pen.acted op.frame w } := by
  rw [State.penEvaluate, ha]
  dsimp only
  rw [hw]

end

/-- Settles O36: the rule that governs the frame, then its evaluation and its records. -/
theorem penFrameCompletion : Obligations.PenFrameCompletion := by
  refine ⟨fun s hq ho => ?_, fun op s hq ho => ⟨State.penDone op, s.pen.absent, PenSample.leaving, ?_, rfl, fun _ => rfl,
    fun he hs => ?_, fun he hs => ?_, fun w p he hs hw hp => ?_, fun he hr hs => ?_, fun w p he hr hs hw hp => ?_,
    fun w st he hr hs hlook hst => ?_, fun w he hr hs hw => ?_⟩⟩
  · rw [exec_penFrameCompletion hq, State.completePen, ho]
  · rintro u g v w rfl rfl
    rw [State.penDone, overrunOffers_eq]
    rfl
  -- a disabled pen enable, in ABSENT, in LINGER, and with the pen near
  · refine exec_penFrameCompletion_of_op hq ho ?_ ?_
    · rw [State.penEvaluate_of_disabled he, if_pos hs]
    · rw [State.penGroup_of_disabled he, PenUnit.near_of_far (.inl hs), if_neg Bool.false_ne_true]
  · refine exec_penFrameCompletion_of_op hq ho ?_ ?_
    · rw [State.penEvaluate_of_disabled he, if_neg (by rw [hs]; decide)]
    · rw [State.penGroup_of_disabled he, PenUnit.near_of_far (.inr hs), if_neg Bool.false_ne_true]
  · refine exec_penFrameCompletion_of_op hq ho ?_ ?_
    · rw [State.penEvaluate_of_disabled he, if_neg (by rcases hs with hs | hs <;> rw [hs] <;> decide)]
    · rw [State.penGroup_of_disabled he, if_pos (s.pen.near_iff.2 hs), PenUnit.leavingRecord_of_sample hp,
        PenUnit.serial_of_followed hw]
  -- out of range, with no pen near and with one
  · have ha := PenUnit.action_of_far_out he hr hs
    refine exec_penFrameCompletion_of_op hq ho ?_ ?_
    · rw [State.penEvaluate, ha]
    · rw [State.penGroup, ha]
  · have ha := PenUnit.action_of_near_out he hr hs
    have hgroup : ∀ u : State, s.penGroup u op =
        [.data .pen (.pen u.pen.state p.leaving), .event (.penLeave w.serial .range)] := fun u => by
      rw [State.penGroup_of_leaves ha, PenUnit.leavingRecord_of_sample hp, PenUnit.serial_of_followed hw]
    refine ⟨fun hg hl => exec_penFrameCompletion_of_op hq ho ?_ (hgroup _), fun hg =>
      exec_penFrameCompletion_of_op hq ho ?_ (hgroup _)⟩
    · rw [State.penEvaluate_of_leaves ha, PenUnit.left_of_lingering hw hg hl]
    · rw [State.penEvaluate_of_leaves ha, PenUnit.left_of_gone hw hg]
  -- a take-up
  · subst hlook hst
    have ha := PenUnit.action_of_far_in he hr hs
    refine exec_penFrameCompletion_of_op hq ho ?_ ?_
    · rw [State.penEvaluate_of_lookup ha, PenUnit.acted_of_far hs]
    · rw [State.penGroup_of_lookup ha, PenUnit.enters_of_far hs, actedGroup]
      simp only [decide_eq_true_eq]
  -- in range with a pen near: a conflict, a continuation, a continuation with a refresh
  · have ha := PenUnit.action_of_near_in he hr hs
    rw [PenUnit.serial_of_followed hw] at ha
    refine ⟨fun hne => ?_, fun heq hdue => ?_, fun w' heq hdue hlook => ?_⟩
    · rw [if_pos hne] at ha
      refine exec_penFrameCompletion_of_op hq ho ?_ ?_
      · rw [State.penEvaluate, ha]
      · rw [State.penGroup, ha]
    · rw [if_neg (not_not_intro heq), if_neg (by rw [hdue]; exact Bool.false_ne_true)] at ha
      refine exec_penFrameCompletion_of_op hq ho ?_ ?_
      · rw [State.penEvaluate_of_continue ha hw, PenUnit.acted_of_continue hs hw]
      · rw [State.penGroup, ha]
        rfl
    · subst hlook
      rw [if_neg (not_not_intro heq), if_pos hdue] at ha
      refine exec_penFrameCompletion_of_op hq ho ?_ ?_
      · rw [State.penEvaluate_of_lookup ha, PenUnit.acted_of_near hs]
      · rw [State.penGroup_of_lookup ha, s.pen.near_iff.2 hs]
        rfl

/-! ## The profile lookup (R58) -/

/-- A PEN row of the active bank as stored. -/
def State.penRow (s : State) (n : Nat) : StoredRow := s.store.row .pen (s.store.active .pen) n

/-- A row takes part in the searches of a lookup, and carries the serial. -/
def StoredRow.serves (r : StoredRow) (serial : Word) : Bool := !(r.view .pen).inert && decide (penSerialOf r.bytes = serial)

theorem StoredRow.view_inert_iff (t : Table) (r : StoredRow) :
    (r.view t).inert = false ↔ r.integrity ≠ .uncorrectable ∧ r.inert = false := by
  unfold StoredRow.view
  cases r.integrity <;> cases r.inert <;> simp

theorem StoredRow.view_bytes {t : Table} {r : StoredRow} (h : (r.view t).inert = false) : (r.view t).bytes = r.bytes := by
  obtain ⟨hi, -⟩ := (r.view_inert_iff t).1 h
  unfold StoredRow.view
  cases hr : r.integrity with
  | intact => cases r.inert <;> rfl
  | singleBit => rfl
  | uncorrectable => exact absurd hr hi

theorem StoredRow.serves_iff (r : StoredRow) (serial : Word) :
    r.serves serial = true ↔ r.integrity ≠ .uncorrectable ∧ r.inert = false ∧ penSerialOf r.bytes = serial := by
  simp [StoredRow.serves, StoredRow.view_inert_iff, and_assoc]

/-- A lookup searches the rows as they stood before it, in ascending order. -/
theorem State.penRows_eq (s : State) :
    s.penRows = ((List.range 8).filter (fun n => !((s.penRow n).view .pen).inert)).map
      (fun n => (n, (s.penRow n).bytes)) := by
  have hrows : State.viewRows .pen (s.store.active .pen) allPens s = allPens.map (fun n => (s.penRow n).view .pen) :=
    State.viewRows_of_nodup _ _ _ _ List.nodup_range
  have hzip : allPens.zip (allPens.map (fun n => (s.penRow n).view .pen)) =
      allPens.map (fun n => (n, (s.penRow n).view .pen)) := by
    simpa using List.zip_map' (f := id) (g := fun n => (s.penRow n).view .pen) (l := allPens)
  rw [State.penRows, hrows, hzip, List.filter_map, List.map_map]
  refine List.map_congr_left fun n hn => ?_
  have hlive : ((s.penRow n).view .pen).inert = false := by simpa using (List.mem_filter.1 hn).2
  simp [StoredRow.view_bytes hlive]

/-- The first row that serves a serial, as a lookup's search finds it. -/
def State.penServing (s : State) (serial : Word) : Option Nat :=
  (List.range 8).find? (fun n => (s.penRow n).serves serial)

theorem State.firstPen_eq (s : State) (serial : Word) :
    firstPen serial s.penRows = (s.penServing serial).map (fun n => (n, (s.penRow n).bytes)) := by
  rw [State.penRows_eq, firstPen, List.find?_map, List.find?_filter]
  simp [State.penServing, StoredRow.serves]

theorem State.penServing_eq_some {s : State} {serial : Word} {n : Nat} (hn : n < 8)
    (h : (s.penRow n).serves serial = true) (hlow : ∀ m < n, (s.penRow m).serves serial ≠ true) :
    s.penServing serial = some n :=
  List.find?_range_eq_some.2 ⟨h, List.mem_range.2 hn, fun m hm => by simpa using hlow m hm⟩

theorem State.penServing_eq_none {s : State} {serial : Word} (h : ∀ n < 8, (s.penRow n).serves serial ≠ true) :
    s.penServing serial = none :=
  List.find?_eq_none.2 fun n hn => h n (List.mem_range.1 hn)

/-- The profile a lookup gives, by the first row of the serial, else of serial 0, else the fallback (R58). -/
theorem State.lookupPen_eq (s : State) (serial : Word) :
    s.lookupPen serial =
      match (s.penServing serial).or (s.penServing 0#32) with
      | some n => { serial := serial, profile := penProfileOf (s.penRow n).bytes, source := .row n }
      | none => { serial := serial, profile := fallbackProfile, source := .fallback } := by
  rw [State.lookupPen, State.firstPen_eq, State.firstPen_eq]
  cases s.penServing serial with
  | some n => rfl
  | none => cases s.penServing 0#32 <;> rfl

/-! ## Ink and the guard (R61, R66, R67, R69) -/

theorem penStateFor_ink_iff (f : PenFrame) (p : PenProfile) :
    penStateFor f p = .ink ↔ f.tip = true ∧ p.inkThreshold ≤ f.sample.pressure := by
  unfold penStateFor
  split <;> simp_all

theorem penStateFor_of_ne_ink {f : PenFrame} {p : PenProfile} (h : penStateFor f p ≠ .ink) : penStateFor f p = .hover := by
  unfold penStateFor at h ⊢
  split <;> simp_all

theorem guardFor_active_iff (g : PenGuard) (before : PenState) (f : PenFrame) (p : PenProfile) :
    (guardFor g before f p).active = true ↔
      p.hand ≠ .none ∧ (penStateFor f p = .ink ∨ f.tip = true ∨ f.sample.hover ≤ p.hoverLimit) := by
  simp [guardFor, guardStands, or_assoc]

/-- An inactive guard keeps its bounds (R67). -/
theorem guardFor_bounds_of_inactive {g : PenGuard} {before : PenState} {f : PenFrame} {p : PenProfile}
    (h : (guardFor g before f p).active = false) :
    (guardFor g before f p).xMin = g.xMin ∧ (guardFor g before f p).xMax = g.xMax ∧
      (guardFor g before f p).yMin = g.yMin ∧ (guardFor g before f p).yMax = g.yMax := by
  have h' : guardStands f p (penStateFor f p) = false := h
  simp [guardFor, h']

/-- An active guard's bounds before the clip is written with integers (R67). -/
theorem guardFor_bounds_of_active {g : PenGuard} {before : PenState} {f : PenFrame} {p : PenProfile}
    (h : (guardFor g before f p).active = true) :
    (guardFor g before f p).xMin = min 16383 (f.sample.x - if p.hand = .left then p.ahead else p.behind) ∧
      (guardFor g before f p).xMax = min 16383 (f.sample.x + if p.hand = .left then p.behind else p.ahead) ∧
      (guardFor g before f p).yMin = min 10239 (f.sample.y - p.above) ∧
      (guardFor g before f p).yMax = min 10239 (f.sample.y + p.below) := by
  have h' : guardStands f p (penStateFor f p) = true := h
  simp [guardFor, h']

/-- A low bound clipped to the panel's first and last position. -/
theorem clip_sub (limit x d : Nat) : ((min limit (x - d) : Nat) : Int) = max 0 (min (limit : Int) ((x : Int) - d)) := by
  omega

theorem clip_add (limit x d : Nat) : ((min limit (x + d) : Nat) : Int) = max 0 (min (limit : Int) ((x : Int) + d)) := by
  omega

/-- Settles O37: the search over the rows as they stood, and the guard field by field. -/
theorem penLookupAndGuard : Obligations.PenLookupAndGuard := by
  refine ⟨fun s serial row serves hrow hserves => ?_, fun g before f p => ⟨penStateFor_ink_iff f p,
    penStateFor_of_ne_ink, guardFor_active_iff g before f p, ?_, rfl, rfl, guardFor_bounds_of_inactive, fun h => ?_⟩⟩
  · obtain rfl : row = s.penRow := funext hrow
    have hiff : ∀ x n, serves x n ↔ n < 8 ∧ (s.penRow n).serves x = true := fun x n => by
      rw [hserves, StoredRow.serves_iff]
    have hsome : ∀ x n, serves x n → (∀ m < n, ¬ serves x m) → s.penServing x = some n := fun x n hn hlow => by
      obtain ⟨hlt, hs⟩ := (hiff x n).1 hn
      exact State.penServing_eq_some hlt hs fun m hm hs' => hlow m hm ((hiff x m).2 ⟨Nat.lt_trans hm hlt, hs'⟩)
    have hnone : ∀ x, (∀ m, ¬ serves x m) → s.penServing x = none := fun x hx =>
      State.penServing_eq_none fun n hn hs => hx n ((hiff x n).2 ⟨hn, hs⟩)
    refine ⟨fun n hn hlow => ?_, fun n hx hn hlow => ?_, fun hx h0 => ?_, rfl⟩
    · rw [State.lookupPen_eq, hsome serial n hn hlow]
      rfl
    · rw [State.lookupPen_eq, hnone serial hx, hsome 0#32 n hn hlow]
      rfl
    · rw [State.lookupPen_eq, hnone serial hx, hnone 0#32 h0]
      rfl
  · simp [guardFor, wrap8]
  · obtain ⟨hxMin, hxMax, hyMin, hyMax⟩ := guardFor_bounds_of_active h
    rw [hxMin, hxMax, hyMin, hyMax]
    refine ⟨fun hh => ?_, fun hh => ?_, clip_sub 10239 _ _, clip_add 10239 _ _⟩
    · rw [hh]
      exact ⟨clip_sub 16383 _ _, clip_add 16383 _ _⟩
    · rw [hh]
      exact ⟨clip_sub 16383 _ _, clip_add 16383 _ _⟩

end Sys2Proof.Machine
end

section
/-! PROOFS. COMMIT and its swap, the check at a GESTURE commit, REVERT and the end of a table's copy (R108, R124 to R128,
R132). -/

namespace Sys2Proof.Machine

/-! ## Table sets and the first table in the way (R124, R128) -/

theorem badSet_iff (b : Nat) : badSet b = true ↔ b = 0 ∨ 32 ≤ b := by
  simp [badSet]

theorem badSet_of_good {b : Nat} (h0 : b ≠ 0) (h32 : b < 32) : badSet b = false := by
  simp [badSet, h0, h32]

/-- The first table of the set with a status of the list is named. -/
theorem TableStore.firstWith_of_split {st : TableStore} {vs : List Staging} {t : Table} (before after : List Table)
    (ht : st.status t ∈ vs) (hb : ∀ u ∈ before, st.status u ∉ vs) :
    st.firstWith vs (before ++ t :: after) = some t := by
  have hnone : before.find? (fun u => vs.contains (st.status u)) = none :=
    List.find?_eq_none.2 fun u hu hc => hb u hu (List.contains_iff_mem.1 hc)
  rw [TableStore.firstWith, List.find?_append, hnone, Option.none_or]
  exact List.find?_cons_of_pos (List.contains_iff_mem.2 ht)

theorem TableStore.firstWith_eq_none {st : TableStore} {vs : List Staging} {ts : TableSet}
    (h : ∀ u ∈ ts, st.status u ∉ vs) : st.firstWith vs ts = none :=
  List.find?_eq_none.2 fun u hu hc => h u hu (List.contains_iff_mem.1 hc)

/-! ## COMMIT and REVERT (R124, R128) -/

section
variable {s : State} {p : Bytes}

theorem State.runCommit_of_bad (h : u8At p 0 = 0 ∨ 32 ≤ u8At p 0) :
    s.runCommit p = s.respond Command.commit.code .badArg [] := if_pos ((badSet_iff _).2 h)

theorem State.runCommit_of_good (h0 : u8At p 0 ≠ 0) (h32 : u8At p 0 < 32) :
    s.runCommit p =
      match s.store.firstWith [.loading, .broken, .copying] (tableSetOf (u8At p 0)) with
      | some t => s.respond Command.commit.code .badState (putU8 (tableCode t))
      | none =>
        if ((tableSetOf (u8At p 0)).filter (fun t => decide (s.store.status t = .edited))).isEmpty = true then
          s.respond Command.commit.code .done (tableSetByte [])
        else
          { s with store := { s.store with
            commit := some ((tableSetOf (u8At p 0)).filter (fun t => decide (s.store.status t = .edited))) } } :=
  if_neg (by rw [badSet_of_good h0 h32]; exact Bool.false_ne_true)

theorem not_blocked_of_clean_or_edited {v : Staging} (h : v = .clean ∨ v = .edited) :
    v ∉ [Staging.loading, .broken, .copying] := by
  rcases h with rfl | rfl <;> decide

theorem State.runCommit_of_blocked (h0 : u8At p 0 ≠ 0) (h32 : u8At p 0 < 32) {before after : List Table} {t : Table}
    (hts : tableSetOf (u8At p 0) = before ++ t :: after)
    (ht : s.store.status t = .loading ∨ s.store.status t = .broken ∨ s.store.status t = .copying)
    (hb : ∀ u ∈ before, s.store.status u = .clean ∨ s.store.status u = .edited) :
    s.runCommit p = s.respond Command.commit.code .badState (putU8 (tableCode t)) := by
  rw [State.runCommit_of_good h0 h32, hts, TableStore.firstWith_of_split before after (by simpa using ht)
    fun u hu => not_blocked_of_clean_or_edited (hb u hu)]

theorem State.runCommit_of_clean (h0 : u8At p 0 ≠ 0) (h32 : u8At p 0 < 32)
    (h : ∀ u ∈ tableSetOf (u8At p 0), s.store.status u = .clean) :
    s.runCommit p = s.respond Command.commit.code .done (tableSetByte []) := by
  have hnone : (tableSetOf (u8At p 0)).filter (fun t => decide (s.store.status t = .edited)) = [] :=
    List.filter_eq_nil_iff.2 fun u hu => by rw [h u hu]; decide
  rw [State.runCommit_of_good h0 h32,
    TableStore.firstWith_eq_none fun u hu => not_blocked_of_clean_or_edited (.inl (h u hu))]
  exact if_pos (List.isEmpty_iff.2 hnone)

theorem State.runCommit_of_edited (h0 : u8At p 0 ≠ 0) (h32 : u8At p 0 < 32)
    (h : ∀ u ∈ tableSetOf (u8At p 0), s.store.status u = .clean ∨ s.store.status u = .edited)
    (he : ∃ u ∈ tableSetOf (u8At p 0), s.store.status u = .edited) :
    s.runCommit p =
      { s with store := { s.store with
        commit := some ((tableSetOf (u8At p 0)).filter (fun t => decide (s.store.status t = .edited))) } } := by
  obtain ⟨u, hu, hu'⟩ := he
  have hmem : u ∈ (tableSetOf (u8At p 0)).filter (fun t => decide (s.store.status t = .edited)) :=
    List.mem_filter.2 ⟨hu, decide_eq_true hu'⟩
  rw [State.runCommit_of_good h0 h32,
    TableStore.firstWith_eq_none fun u hu => not_blocked_of_clean_or_edited (h u hu)]
  exact if_neg fun hempty => List.ne_nil_of_mem hmem (List.isEmpty_iff.1 hempty)

theorem State.runRevert_of_bad (h : u8At p 0 = 0 ∨ 32 ≤ u8At p 0) :
    s.runRevert p = s.respond Command.revert.code .badArg [] := if_pos ((badSet_iff _).2 h)

theorem State.runRevert_of_good (h0 : u8At p 0 ≠ 0) (h32 : u8At p 0 < 32) :
    s.runRevert p =
      match s.store.firstWith [.loading, .copying] (tableSetOf (u8At p 0)) with
      | some t => s.respond Command.revert.code .badState (putU8 (tableCode t))
      | none =>
        { s with store := TableStore.setStatuses .copying (tableSetOf (u8At p 0)) s.store,
                 command := { s.command with revert := some (tableSetOf (u8At p 0)) } } :=
  if_neg (by rw [badSet_of_good h0 h32]; exact Bool.false_ne_true)

theorem State.runRevert_of_blocked (h0 : u8At p 0 ≠ 0) (h32 : u8At p 0 < 32) {before after : List Table} {t : Table}
    (hts : tableSetOf (u8At p 0) = before ++ t :: after)
    (ht : s.store.status t = .loading ∨ s.store.status t = .copying)
    (hb : ∀ u ∈ before, s.store.status u ≠ .loading ∧ s.store.status u ≠ .copying) :
    s.runRevert p = s.respond Command.revert.code .badState (putU8 (tableCode t)) := by
  rw [State.runRevert_of_good h0 h32, hts, TableStore.firstWith_of_split before after (by simpa using ht)
    fun u hu => by simpa using hb u hu]

theorem State.runRevert_of_free (h0 : u8At p 0 ≠ 0) (h32 : u8At p 0 < 32)
    (h : ∀ u ∈ tableSetOf (u8At p 0), s.store.status u ≠ .loading ∧ s.store.status u ≠ .copying) :
    s.runRevert p =
      { s with store := TableStore.setStatuses .copying (tableSetOf (u8At p 0)) s.store,
               command := { s.command with revert := some (tableSetOf (u8At p 0)) } } := by
  rw [State.runRevert_of_good h0 h32, TableStore.firstWith_eq_none fun u hu => by simpa using h u hu]

end

/-! ## Bank selects and statuses of a set (R126, R128) -/

@[simp] theorem TableStore.table_flip_same (st : TableStore) (t : Table) :
    (st.flip t).table t = { st.table t with select := (st.table t).select.other, status := .copying } :=
  st.setTable_same t _

theorem TableStore.table_flip_other (st : TableStore) {t u : Table} (h : t ≠ u) : (st.flip t).table u = st.table u :=
  st.setTable_other t u _ h

theorem TableStore.table_flipAll_of_not_mem {ts : TableSet} {t : Table} (h : t ∉ ts) (st : TableStore) :
    (TableStore.flipAll ts st).table t = st.table t := by
  induction ts generalizing st with
  | nil => rfl
  | cons u ts ih =>
    obtain ⟨hne, hts⟩ := not_or.1 (List.mem_cons.not.1 h)
    rw [TableStore.flipAll, ih hts, TableStore.table_flip_other st (Ne.symm hne)]

/-- A set names a table once, so its select is flipped once. -/
theorem TableStore.table_flipAll_of_mem {ts : TableSet} (hd : ts.Nodup) {t : Table} (h : t ∈ ts) (st : TableStore) :
    (TableStore.flipAll ts st).table t =
      { st.table t with select := (st.table t).select.other, status := .copying } := by
  induction ts generalizing st with
  | nil => cases h
  | cons u ts ih =>
    obtain ⟨hu, hts⟩ := List.nodup_cons.1 hd
    rw [TableStore.flipAll]
    obtain rfl | ht := List.mem_cons.1 h
    · rw [TableStore.table_flipAll_of_not_mem hu, TableStore.table_flip_same]
    · have hne : u ≠ t := fun hc => hu (hc ▸ ht)
      rw [ih hts ht, TableStore.table_flip_other st hne]

@[simp] theorem TableStore.table_setStatus_same (st : TableStore) (t : Table) (v : Staging) :
    (st.setStatus t v).table t = { st.table t with status := v } :=
  st.setTable_same t _

theorem TableStore.table_setStatus_other (st : TableStore) {t u : Table} (v : Staging) (h : t ≠ u) :
    (st.setStatus t v).table u = st.table u :=
  st.setTable_other t u _ h

theorem TableStore.status_setStatus_same (st : TableStore) (t : Table) (v : Staging) :
    (st.setStatus t v).status t = v := by
  rw [TableStore.status, TableStore.table_setStatus_same]

theorem TableStore.status_setStatus_other (st : TableStore) {t u : Table} (v : Staging) (h : t ≠ u) :
    (st.setStatus t v).status u = st.status u := by
  rw [TableStore.status, TableStore.table_setStatus_other st v h, TableStore.status]

theorem TableStore.table_setStatuses (v : Staging) (ts : List Table) (t : Table) (st : TableStore) :
    (TableStore.setStatuses v ts st).table t = if t ∈ ts then { st.table t with status := v } else st.table t := by
  induction ts generalizing st with
  | nil => rfl
  | cons u ts ih =>
    rw [TableStore.setStatuses, ih]
    by_cases hu : u = t
    · subst hu
      simp
    · rw [TableStore.table_setStatus_other st v hu]
      simp [Ne.symm hu]

/-! ## The swap and the check of the winning rules (R126, R108) -/

theorem State.swap_isDue {s : State} {ts : TableSet} (hc : s.store.commit = some ts) (hh : s.store.holds = 0) :
    s.isDue .swap = true := by
  simp [State.isDue, hc, hh]

theorem Context.watchedRow_of_winner {c : Context} {w : Winner} (h : c.state = .active ∨ c.state = .finishing)
    (hw : c.winner = some w) : c.watchedRow = some w.row := by
  rw [Context.watchedRow, if_pos h, hw]
  rfl

theorem Context.watchedRow_of_other {c : Context} (ha : c.state ≠ .active) (hf : c.state ≠ .finishing) :
    c.watchedRow = none := if_neg (not_or.2 ⟨ha, hf⟩)

theorem Context.recheck_of_active {c : Context} {w : Winner} (h : c.state = .active) (hw : c.winner = some w)
    (f : Surface) (now : GestureRule) :
    c.recheck f now = if now.inert = true ∨ now ≠ w.rule then (c.cancelled, c.cancelRecords f) else (c, []) := by
  rw [Context.recheck, h, hw]

theorem Context.recheck_of_finishing {c : Context} {w : Winner} (h : c.state = .finishing) (hw : c.winner = some w)
    (f : Surface) (now : GestureRule) :
    c.recheck f now = if now.inert = true ∨ now ≠ w.rule then ({ c with winner := none }, []) else (c, []) := by
  rw [Context.recheck, h, hw]

theorem Context.recheck_of_candidate {c : Context} (h : c.state = .candidate) (f : Surface) (now : GestureRule) :
    c.recheck f now = ({ c with recompute := true }, []) := by
  rw [Context.recheck, h]

theorem Context.recheck_of_idle {c : Context} (h : c.state = .closed ∨ c.state = .gathering ∨ c.state = .passive)
    (f : Surface) (now : GestureRule) : c.recheck f now = (c, []) := by
  rcases h with h | h | h <;> rw [Context.recheck, h]

/-- A context with a winning rule: the row is read, and compared with the rule. -/
theorem State.recheckGesture_of_winner {s : State} {f : Surface} {w : Winner}
    (h : (s.unit f).context.state = .active ∨ (s.unit f).context.state = .finishing)
    (hw : (s.unit f).context.winner = some w) :
    s.recheckGesture f =
      State.offer
        ((s.readActive .gesture w.row).setContext f ((s.unit f).context.recheck f (s.rule w.row)).1)
        (((s.unit f).context.recheck f (s.rule w.row)).2.map (.data (surfaceStream f))) := by
  rw [State.recheckGesture]
  dsimp only
  rw [Context.watchedRow_of_winner h hw]

/-- A context in no state that reads its winning row. -/
theorem State.recheckGesture_of_other {s : State} {f : Surface} (ha : (s.unit f).context.state ≠ .active)
    (hf : (s.unit f).context.state ≠ .finishing) :
    s.recheckGesture f = s.setContext f ((s.unit f).context.recheck f (ruleOf (defaultRow .gesture))).1 := by
  rw [State.recheckGesture]
  dsimp only
  rw [Context.watchedRow_of_other ha hf]

theorem State.offer_nil (s : State) : s.offer [] = s := rfl

theorem State.setContext_self (s : State) (f : Surface) : s.setContext f (s.unit f).context = s := by
  cases f <;> rfl

theorem State.readActive_setContext_self (s : State) (t : Table) (n : Nat) (f : Surface) :
    (s.readActive t n).setContext f (s.unit f).context = s.readActive t n := by
  cases f <;> rfl

/-- A winning rule that changed or reads inert cancels an ACTIVE context (R108). -/
theorem State.recheckGesture_of_active {s : State} {f : Surface} {w : Winner} (h : (s.unit f).context.state = .active)
    (hw : (s.unit f).context.winner = some w) :
    s.recheckGesture f =
      if (s.rule w.row).inert = true ∨ s.rule w.row ≠ w.rule then
        State.offer ((s.readActive .gesture w.row).setContext f (s.unit f).context.cancelled)
          [.data (surfaceStream f) (gestureRecord f w.rule .cancel (s.unit f).context (s.unit f).context.progress)]
      else s.readActive .gesture w.row := by
  rw [State.recheckGesture_of_winner (.inl h) hw, Context.recheck_of_active h hw, Context.cancelRecords_of_active h hw]
  split
  · rfl
  · rw [List.map_nil, State.offer_nil, State.readActive_setContext_self]

/-- A FINISHING context goes on without a winning rule that changed or reads inert (R108). -/
theorem State.recheckGesture_of_finishing {s : State} {f : Surface} {w : Winner}
    (h : (s.unit f).context.state = .finishing) (hw : (s.unit f).context.winner = some w) :
    s.recheckGesture f =
      if (s.rule w.row).inert = true ∨ s.rule w.row ≠ w.rule then
        (s.readActive .gesture w.row).setContext f { (s.unit f).context with winner := none }
      else s.readActive .gesture w.row := by
  rw [State.recheckGesture_of_winner (.inr h) hw, Context.recheck_of_finishing h hw]
  split
  · rfl
  · rw [List.map_nil, State.offer_nil, State.readActive_setContext_self]

theorem State.recheckGesture_of_candidate {s : State} {f : Surface} (h : (s.unit f).context.state = .candidate) :
    s.recheckGesture f = s.setContext f { (s.unit f).context with recompute := true } := by
  rw [State.recheckGesture_of_other (by rw [h]; decide) (by rw [h]; decide), Context.recheck_of_candidate h]

theorem State.recheckGesture_of_idle {s : State} {f : Surface}
    (h : (s.unit f).context.state = .closed ∨ (s.unit f).context.state = .gathering ∨
      (s.unit f).context.state = .passive) : s.recheckGesture f = s := by
  have hne : (s.unit f).context.state ≠ .active ∧ (s.unit f).context.state ≠ .finishing := by
    rcases h with h | h | h <;> rw [h] <;> decide
  rw [State.recheckGesture_of_other hne.1 hne.2, Context.recheck_of_idle h, State.setContext_self]

/-! ## Copies (R127, R132) -/

/-- The locked rows are those of R134 in the ZONE table, whose pages hold 24 rows each. -/
theorem TableStore.copiedRows_eq (st : TableStore) (t : Table) :
    st.copiedRows t = (List.range (tableRows t)).filter (fun n => decide (¬ (t = .zone ∧ n % 24 < st.lock))) := by
  refine List.filter_congr fun n hn => ?_
  have hlt : n < tableRows t := List.mem_range.1 hn
  rw [Bool.eq_iff_iff]
  by_cases ht : t = .zone
  · subst ht
    have h96 : n < 96 := hlt
    simp [TableStore.locked, h96]
  · simp [TableStore.locked, ht]

theorem StoredRow.view_inert_of_inert {r : StoredRow} (h : r.integrity = .uncorrectable ∨ r.inert = true) (t : Table) :
    (r.view t).inert = true := by
  rw [← Bool.not_eq_false, StoredRow.view_inert_iff]
  rintro ⟨hi, hn⟩
  rcases h with h | h
  · exact hi h
  · rw [h] at hn
    cases hn

/-- A row that reads as inert is copied as the inert row bytes with its mark set (R132). -/
theorem StoredRow.copied_of_inert {r : StoredRow} (h : r.integrity = .uncorrectable ∨ r.inert = true) (t : Table) :
    (r.view t).copied t = { bytes := defaultRow t, inert := true, integrity := .intact } := by
  rw [RowView.copied, StoredRow.used_view, if_pos h, StoredRow.view_inert_of_inert h]

theorem StoredRow.copied_of_live {r : StoredRow} (hi : r.integrity ≠ .uncorrectable) (hn : r.inert = false) (t : Table) :
    (r.view t).copied t = { bytes := r.bytes, inert := false, integrity := .intact } := by
  have hlive : ¬ (r.integrity = .uncorrectable ∨ r.inert = true) := not_or.2 ⟨hi, by rw [hn]; exact Bool.false_ne_true⟩
  rw [RowView.copied, StoredRow.used_view, if_neg hlive, (r.view_inert_iff t).2 ⟨hi, hn⟩]

theorem State.copyRows_cons (t : Table) (n : Nat) (ns : List Nat) (s : State) :
    State.copyRows t (n :: ns) s = State.copyRows t ns
      { s.readActive t n with
        store := (s.readActive t n).store.writeRow t (s.store.staging t) n
          (((s.store.row t (s.store.active t) n).view t).copied t) } := rfl

/-! ## The end of a copy (R127, R128) -/

theorem TableStore.copying_iff (st : TableStore) (t : Table) : st.copying t = true ↔ st.status t = .copying := by
  simp [TableStore.copying]

theorem State.answerRevert_of_ended {s : State} {ts : TableSet} (hr : s.command.revert = some ts)
    (h : ∀ k ∈ ts, s.store.status k ≠ .copying) :
    s.answerRevert = State.respond { s with command := { s.command with revert := none } } Command.revert.code .done
      (tableSetByte ts) := by
  rw [State.answerRevert, hr]
  refine if_neg fun hany => ?_
  obtain ⟨k, hk, hc⟩ := List.any_eq_true.1 hany
  exact h k hk ((s.store.copying_iff k).1 hc)

/-- No REVERT is in progress, or one of its tables still is COPYING. -/
theorem State.answerRevert_of_going {s : State}
    (h : s.command.revert = none ∨ ∃ ts, s.command.revert = some ts ∧ ∃ k ∈ ts, s.store.status k = .copying) :
    s.answerRevert = s := by
  rw [State.answerRevert]
  obtain hr | ⟨ts, hr, k, hk, hc⟩ := h
  · rw [hr]
  · rw [hr]
    exact if_pos (List.any_eq_true.2 ⟨k, hk, (s.store.copying_iff k).2 hc⟩)

theorem State.endCopy_of_other {s : State} {t : Table} (h : s.store.status t ≠ .copying) : s.endCopy t = s :=
  if_neg fun hc => h ((s.store.copying_iff t).1 hc)

theorem State.endCopy_of_copying {s u : State} {t : Table} (h : s.store.status t = .copying)
    (hu : u = State.copyRows t
      ((List.range (tableRows t)).filter (fun n => decide (¬ (t = .zone ∧ n % 24 < s.store.lock)))) s) :
    s.endCopy t = State.answerRevert { u with store := u.store.setStatus t .clean } := by
  rw [State.endCopy, if_pos ((s.store.copying_iff t).2 h), TableStore.copiedRows_eq, ← hu]

/-- Settles O50. -/
theorem commitSwapAndRevert : Obligations.CommitSwapAndRevert := by
  refine ⟨⟨fun p s ts hr hl hts => ?_, fun s ts hr hc hh => ?_, fun st ts hd => ⟨fun t ht => ?_, fun t ht => ?_⟩,
    fun s ts => ⟨rfl, rfl, rfl, rfl, rfl, rfl⟩, fun s f c hc => ?_⟩,
    fun p s ts hr hl hts => ?_, fun st v ts t => ⟨fun ht => ?_, fun ht => ?_⟩,
    fun t s u hq => ⟨fun h => ?_, fun h hu => ?_⟩, fun t s n ns r u hrow hu => ⟨rfl, fun h => ?_, fun hi hn => ?_⟩⟩
  -- COMMIT
  · obtain rfl : ts = tableSetOf (u8At p 0) := hts
    rw [exec_commit hr p (beq_iff_eq.2 hl)]
    refine ⟨fun hbad => ?_, fun h0 h32 => ⟨fun before t after hsplit ht hb => ?_, fun hclean => ?_, fun hok he => ?_⟩⟩
    · rw [State.runCommit_of_bad hbad]
      rfl
    · rw [State.runCommit_of_blocked (s := s.occupy Command.commit.code) h0 h32 hsplit ht hb]
      rfl
    · rw [State.runCommit_of_clean (s := s.occupy Command.commit.code) h0 h32 hclean]
      rfl
    · rw [State.runCommit_of_edited (s := s.occupy Command.commit.code) h0 h32 hok he]
      rfl
  -- the swap
  · rw [exec_swap hr (State.swap_isDue hc hh), State.perform, State.takeSwap, hc]
  · rw [TableStore.table_flipAll_of_mem hd ht]
    rfl
  · exact TableStore.table_flipAll_of_not_mem ht st
  · subst hc
    exact ⟨fun w => State.recheckGesture_of_active, fun w => State.recheckGesture_of_finishing,
      State.recheckGesture_of_candidate, State.recheckGesture_of_idle⟩
  -- REVERT
  · obtain rfl : ts = tableSetOf (u8At p 0) := hts
    rw [exec_revert hr p (beq_iff_eq.2 hl)]
    refine ⟨fun hbad => ?_, fun h0 h32 => ⟨fun before t after hsplit ht hb => ?_, fun hok => ?_⟩⟩
    · rw [State.runRevert_of_bad hbad]
      rfl
    · rw [State.runRevert_of_blocked (s := s.occupy Command.revert.code) h0 h32 hsplit ht hb]
      rfl
    · rw [State.runRevert_of_free (s := s.occupy Command.revert.code) h0 h32 hok]
      rfl
  · rw [TableStore.table_setStatuses, if_pos ht]
  · rw [TableStore.table_setStatuses, if_neg ht]
  -- the end of a copy
  · rw [exec_copyEnd hq, State.endCopy_of_other h]
  · rw [exec_copyEnd hq, State.endCopy_of_copying h hu]
    refine ⟨fun ts hr hts => ?_, fun hgo => ?_⟩
    · have hended : ∀ k ∈ ts, (u.store.setStatus t .clean).status k ≠ .copying := fun k hk => by
        by_cases hkt : k = t
        · rw [hkt, TableStore.status_setStatus_same]
          decide
        · rw [TableStore.status_setStatus_other _ _ (Ne.symm hkt)]
          exact hts k hk hkt
      rw [State.answerRevert_of_ended (s := { u with store := u.store.setStatus t .clean }) hr hended]
    · rw [State.answerRevert_of_going (s := { u with store := u.store.setStatus t .clean })]
      obtain hr | ⟨ts, hr, k, hk, hkt, hc⟩ := hgo
      · exact .inl hr
      · refine .inr ⟨ts, hr, k, hk, ?_⟩
        rw [← hc]
        exact TableStore.status_setStatus_other _ _ (Ne.symm hkt)
  · subst hrow hu
    rw [State.copyRows_cons, StoredRow.copied_of_inert h]
  · subst hrow hu
    rw [State.copyRows_cons, StoredRow.copied_of_live hi hn]

end Sys2Proof.Machine
end

section
/-! PROOFS. The palm test at its thresholds, at stage 4 and at birth (R76, R78, R85). -/

namespace Sys2Proof.Machine

/-! ## The test itself -/

/-- One area threshold, chosen by the birth zone, and one length (R76). -/
theorem palmFails_iff (p : Profile) (zone : ZoneKind) (area major : Nat) :
    palmFails p zone area major = true ↔
      (if zone = .guard then p.guardArea else p.palmArea) ≤ area ∨ p.palmLength ≤ major := by
  rw [palmFails, Bool.or_eq_true, decide_eq_true_iff, decide_eq_true_iff]

theorem palmFails_iff_by_zone (p : Profile) (zone : ZoneKind) (area major : Nat) :
    palmFails p zone area major = true ↔
      (zone = .guard ∧ p.guardArea ≤ area) ∨ (zone ≠ .guard ∧ p.palmArea ≤ area) ∨ p.palmLength ≤ major := by
  rw [palmFails_iff]
  by_cases hz : zone = .guard <;> simp [hz]

/-- A threshold of 0 is reached by every value. -/
theorem palmFails_of_threshold_zero {p : Profile} {zone : ZoneKind} (area major : Nat)
    (h : p.palmLength = 0 ∨ (zone ≠ .guard ∧ p.palmArea = 0) ∨ (zone = .guard ∧ p.guardArea = 0)) :
    palmFails p zone area major = true := by
  rw [palmFails_iff_by_zone]
  rcases h with h | ⟨hz, h⟩ | ⟨hz, h⟩
  · exact .inr (.inr (h ▸ Nat.zero_le major))
  · exact .inr (.inl ⟨hz, h ▸ Nat.zero_le area⟩)
  · exact .inl ⟨hz, h ▸ Nat.zero_le area⟩

/-- A threshold of 255 is reached by the largest byte alone. -/
theorem palmFails_iff_of_threshold_max {p : Profile} {zone : ZoneKind} {area major : Nat} (ha : area ≤ 255)
    (hm : major ≤ 255) (hlength : p.palmLength = 255)
    (harea : (if zone = .guard then p.guardArea else p.palmArea) = 255) :
    palmFails p zone area major = true ↔ area = 255 ∨ major = 255 := by
  rw [palmFails_iff, harea, hlength, ha.ge_iff_eq, hm.ge_iff_eq]

/-! ## Where it is applied -/

/-- The palm test is the fourth step of birth classification (R78). -/
theorem classify_of_palmFails {f : Surface} {op : SenseOp} {zone : ZoneKind} {c : Candidate}
    (slots : List (Option Track)) (hblock : zone ≠ .block)
    (hguard : ¬ (f = .panel ∧ zone ≠ .pass ∧ op.guard.covers c.x c.y = true))
    (htyping : ¬ (f = .pad ∧ zone ≠ .pass ∧ op.typing = true))
    (hpalm : palmFails op.profile zone c.area c.major = true) :
    classify f op zone slots c = some .palm := by
  rw [classify, if_neg hblock, if_neg hguard, if_neg htyping, if_pos hpalm]

/-- Settles O23. -/
theorem palmTest : Obligations.PalmTest := by
  refine ⟨palmFails_iff_by_zone, fun _ _ => palmFails_of_threshold_zero,
    fun _ _ _ _ => palmFails_iff_of_threshold_max, fun p t => ?_, fun _ _ _ slots _ => classify_of_palmFails slots⟩
  simp only [Track.ongoing, Track.unheld_iff]

end Sys2Proof.Machine
end

section
/-! PROOFS. The figure of a context's members and the tests and progress of the gesture kinds (R101, R102, R104, R106). -/

namespace Sys2Proof.Machine

/-! ## The figure (R101) -/

/-- Each bit tried keeps the root between `r` and `r + 2 ^ k`. -/
theorem isqrtFrom_bounds (k r n : Nat) (hlo : r * r ≤ n) (hhi : n < (r + 2 ^ k) * (r + 2 ^ k)) :
    isqrtFrom k r n * isqrtFrom k r n ≤ n ∧ n < (isqrtFrom k r n + 1) * (isqrtFrom k r n + 1) := by
  induction k generalizing r with
  | zero => exact ⟨hlo, hhi⟩
  | succ k ih =>
    rw [isqrtFrom]
    split
    next hbit => exact ih _ hbit (by rwa [Nat.add_assoc, ← Nat.two_mul, ← Nat.pow_succ'])
    next hbit => exact ih r hlo (Nat.lt_of_not_le hbit)

/-- Half as many bits as the number has are enough for its root. -/
theorem isqrt_bounds (n : Nat) : isqrt n * isqrt n ≤ n ∧ n < (isqrt n + 1) * (isqrt n + 1) := by
  have hbits : n < 2 ^ (n.log2 / 2 + 1) * 2 ^ (n.log2 / 2 + 1) := by
    rw [← Nat.pow_add]
    exact Nat.lt_of_lt_of_le Nat.lt_log2_self (Nat.pow_le_pow_right Nat.two_pos (by omega))
  exact isqrtFrom_bounds _ 0 n (Nat.zero_le n) (by rwa [Nat.zero_add])

theorem figure_eq (ms : List Member) :
    figure ms = {
      x := (ms.map Member.lastX).sum / ms.length, y := (ms.map Member.lastY).sum / ms.length,
      spread := (ms.map (fun m => isqrt (sqDist m.lastX m.lastY ((ms.map Member.lastX).sum / ms.length)
        ((ms.map Member.lastY).sum / ms.length)))).sum / ms.length } := by
  simp only [figure, List.sum_eq_foldl]

/-! ## The conditions that the tests share (R104) -/

section
variable {r : GestureRule} {c : Context}

theorem GestureRule.inTime_iff : r.inTime c = true ↔ c.elapsed ≤ r.timeMax * 100 ∨ r.timeMax = 0 := by
  rw [GestureRule.inTime, Bool.or_eq_true, beq_iff_eq, decide_eq_true_iff, or_comm]

theorem GestureRule.still_iff : r.still c = true ↔ ∀ m ∈ c.members, m.excursion < r.distance * r.distance := by
  simp [GestureRule.still]

theorem Context.allEnded_iff : c.allEnded = true ↔ ∀ m ∈ c.members, m.ended = true := List.all_eq_true

theorem Context.noneEnded_iff : c.noneEnded = true ↔ ∀ m ∈ c.members, m.ended = false := by
  simp [Context.noneEnded]

/-! ## The tests by kind (R102, R104) -/

theorem GestureRule.satisfied_tap (h : r.kind = some .tap) :
    r.satisfied c = true ↔ c.allEnded = true ∧ r.inTime c = true ∧ r.still c = true := by
  rw [GestureRule.satisfied, h]
  simp [and_assoc]

theorem GestureRule.satisfied_hold (h : r.kind = some .hold) :
    r.satisfied c = true ↔ c.noneEnded = true ∧ r.timeMin * 100 ≤ c.elapsed ∧ r.still c = true := by
  rw [GestureRule.satisfied, h]
  simp [and_assoc]

theorem GestureRule.satisfied_swipeLeft (h : r.kind = some .swipeLeft) :
    r.satisfied c = true ↔ c.dy.natAbs ≤ c.dx.natAbs ∧ (r.distance : Int) ≤ -c.dx ∧ r.inTime c = true := by
  rw [GestureRule.satisfied, h]
  simp [and_assoc]

theorem GestureRule.satisfied_swipeRight (h : r.kind = some .swipeRight) :
    r.satisfied c = true ↔ c.dy.natAbs ≤ c.dx.natAbs ∧ (r.distance : Int) ≤ c.dx ∧ r.inTime c = true := by
  rw [GestureRule.satisfied, h]
  simp [and_assoc]

theorem GestureRule.satisfied_swipeUp (h : r.kind = some .swipeUp) :
    r.satisfied c = true ↔ c.dx.natAbs < c.dy.natAbs ∧ (r.distance : Int) ≤ -c.dy ∧ r.inTime c = true := by
  rw [GestureRule.satisfied, h]
  simp [and_assoc]

theorem GestureRule.satisfied_swipeDown (h : r.kind = some .swipeDown) :
    r.satisfied c = true ↔ c.dx.natAbs < c.dy.natAbs ∧ (r.distance : Int) ≤ c.dy ∧ r.inTime c = true := by
  rw [GestureRule.satisfied, h]
  simp [and_assoc]

theorem GestureRule.satisfied_pinchIn (h : r.kind = some .pinchIn) :
    r.satisfied c = true ↔ (r.distance : Int) ≤ (c.base.spread : Int) - (figure c.members).spread := by
  rw [GestureRule.satisfied, h]
  exact decide_eq_true_iff

theorem GestureRule.satisfied_pinchOut (h : r.kind = some .pinchOut) :
    r.satisfied c = true ↔ (r.distance : Int) ≤ ((figure c.members).spread : Int) - c.base.spread := by
  rw [GestureRule.satisfied, h]
  exact decide_eq_true_iff

/-! ## The progress by kind (R106) -/

theorem GestureRule.progress_swipeLeft (h : r.kind = some .swipeLeft) : r.progress c = -c.dx := by
  rw [GestureRule.progress, h]

theorem GestureRule.progress_swipeRight (h : r.kind = some .swipeRight) : r.progress c = c.dx := by
  rw [GestureRule.progress, h]

theorem GestureRule.progress_swipeUp (h : r.kind = some .swipeUp) : r.progress c = -c.dy := by
  rw [GestureRule.progress, h]

theorem GestureRule.progress_swipeDown (h : r.kind = some .swipeDown) : r.progress c = c.dy := by
  rw [GestureRule.progress, h]

/-- The spread of the anchor counts as 1 where it is 0. -/
theorem GestureRule.progress_pinch (h : r.kind = some .pinchIn ∨ r.kind = some .pinchOut) :
    r.progress c = ((min 32767 ((figure c.members).spread * 256 /
      (if c.base.spread = 0 then 1 else c.base.spread)) : Nat) : Int) := by
  have hdiv : max 1 c.base.spread = if c.base.spread = 0 then 1 else c.base.spread := by split <;> omega
  rw [← hdiv]
  rcases h with h | h <;> rw [GestureRule.progress, h]

theorem GestureRule.progress_timed (h : r.kind = some .hold ∨ r.kind = some .tap) :
    r.progress c = ((c.elapsed / 10 : Nat) : Int) := by
  rcases h with h | h <;> rw [GestureRule.progress, h]

end

/-- Settles O31. A kind other than TAP is tested against the anchor, which is there. -/
theorem gestureRuleTests : Obligations.GestureRuleTests := by
  refine ⟨isqrt_bounds, fun ms _ => ⟨_, _, rfl, rfl, figure_eq ms⟩, ?_⟩
  rintro r c a g dx dy timely still ended down hanchor rfl rfl rfl htimely hstill hended hdown
  rw [← GestureRule.inTime_iff] at htimely
  rw [← GestureRule.still_iff] at hstill
  rw [← Context.allEnded_iff] at hended
  rw [← Context.noneEnded_iff] at hdown
  have hbase (hk : r.kind ≠ some .tap) : c.base = a := by
    obtain ha | ⟨-, htap⟩ := hanchor
    · rw [Context.base, ha, Option.getD_some]
    · exact absurd htap hk
  have hne {k : GestureKind} (h : r.kind = some k) (hk : k ≠ .tap) : r.kind ≠ some .tap := by
    rw [h]
    exact fun heq => hk (Option.some.inj heq)
  rw [htimely, hstill, hended, hdown]
  refine ⟨fun h => ?_, fun h => ?_, fun h => ?_, fun h => ?_, fun h => ?_, fun h => ?_, fun h => ?_, fun h => ?_⟩
  · rw [← hbase (hne h (by decide))]
    exact ⟨GestureRule.satisfied_swipeLeft h, GestureRule.progress_swipeLeft h⟩
  · rw [← hbase (hne h (by decide))]
    exact ⟨GestureRule.satisfied_swipeRight h, GestureRule.progress_swipeRight h⟩
  · rw [← hbase (hne h (by decide))]
    exact ⟨GestureRule.satisfied_swipeUp h, GestureRule.progress_swipeUp h⟩
  · rw [← hbase (hne h (by decide))]
    exact ⟨GestureRule.satisfied_swipeDown h, GestureRule.progress_swipeDown h⟩
  · rw [← hbase (hne h (by decide))]
    exact ⟨GestureRule.satisfied_pinchIn h, GestureRule.progress_pinch (.inl h)⟩
  · rw [← hbase (hne h (by decide))]
    exact ⟨GestureRule.satisfied_pinchOut h, GestureRule.progress_pinch (.inr h)⟩
  · exact ⟨GestureRule.satisfied_hold h, GestureRule.progress_timed (.inl h)⟩
  · exact ⟨GestureRule.satisfied_tap h, GestureRule.progress_timed (.inr h)⟩

end Sys2Proof.Machine
end

section
/-! PROOFS. The track the pad pointer follows, and the motion of an axis (R110, R111). -/

namespace Sys2Proof.Machine

/-! ## The followed track (R110) -/

theorem liveAt_iff (slots : List (Option Track)) (i : Nat) :
    liveAt slots i = true ↔ ∃ t, slots[i]? = some (some t) ∧ t.state = .live := by
  rw [liveAt, List.getD_eq_getElem?_getD]
  rcases slots[i]? with _ | _ | t <;> simp

theorem followedSlot_of_gathering {c : Context} {m : Member} (slots : List (Option Track)) (h : c.state = .gathering)
    (hm : c.members = [m]) :
    followedSlot c slots = if m.ended = false ∧ liveAt slots m.slot = true then some m.slot else none := by
  rw [followedSlot, h, hm]
  simp

theorem followedSlot_of_passive {c : Context} (slots : List (Option Track)) (h : c.state = .passive) :
    followedSlot c slots = (c.members.find? (fun m => !m.ended && liveAt slots m.slot)).map Member.slot := by
  rw [followedSlot, h]

theorem followedSlot_of_other {c : Context} (slots : List (Option Track))
    (hg : c.state ≠ .gathering ∨ c.members.length ≠ 1) (hp : c.state ≠ .passive) : followedSlot c slots = none := by
  unfold followedSlot
  split
  next m hs hm =>
    rcases hg with hg | hg
    · exact absurd hs hg
    · exact absurd (congrArg List.length hm) hg
  next hs => exact absurd hs hp
  next => rfl

/-! ## The motion of an axis (R111) -/

theorem boundCount_eq (n : Int) : boundCount n = if n < -2048 then -2048 else if 2047 < n then 2047 else n := by
  rw [boundCount]
  split
  · omega
  · split <;> omega

theorem boundCount_of_within {n : Int} (hlo : -2048 ≤ n) (hhi : n ≤ 2047) : boundCount n = n := by
  rw [boundCount, min_eq_right hhi, max_eq_right hlo]

/-- What the count's bound takes off stays in the remainder. -/
theorem axisMotion_remainder (delta rem : Int) (gain : Nat) :
    (axisMotion delta gain rem).2 = boundRemainder (delta * gain + rem - 256 * (axisMotion delta gain rem).1) := by
  refine congrArg boundRemainder ?_
  rw [axisMotion]
  ring

/-- Where the bound does not act, the remainder is that of a division toward zero, whose size is below 256. -/
theorem axisMotion_remainder_of_within {delta rem n : Int} {gain : Nat} (hn : n = Int.tdiv (delta * gain + rem) 256)
    (hlo : -2048 ≤ n) (hhi : n ≤ 2047) :
    (axisMotion delta gain rem).2 = delta * gain + rem - 256 * n ∧
      -255 ≤ delta * gain + rem - 256 * n ∧ delta * gain + rem - 256 * n ≤ 255 := by
  have hcount : (axisMotion delta gain rem).1 = n := by
    rw [hn] at hlo hhi ⊢
    exact boundCount_of_within hlo hhi
  have hsize : -255 ≤ delta * gain + rem - 256 * n ∧ delta * gain + rem - 256 * n ≤ 255 := by
    rw [hn, ← Int.tmod_def]
    exact ⟨Int.lt_tmod_of_pos _ (by decide), Int.le_of_lt_add_one (Int.tmod_lt_of_pos _ (by decide))⟩
  rw [axisMotion_remainder, hcount, boundRemainder]
  exact ⟨by omega, hsize⟩

/-! ## The pointer's step (R110) -/

section
variable {p : PointerRecord} {c : Context} {slots : List (Option Track)} {i : Nat} {t : Track} (gain : Nat)

theorem pointerStep_of_same (hf : followedSlot c slots = some i) (ht : slots[i]? = some (some t))
    (hp : p.followed = some i) :
    pointerStep p c slots gain =
      ({ p with refX := t.x, refY := t.y, remX := (axisMotion ((t.x : Int) - p.refX) gain p.remX).2,
                remY := (axisMotion ((t.y : Int) - p.refY) gain p.remY).2 },
       (axisMotion ((t.x : Int) - p.refX) gain p.remX).1, (axisMotion ((t.y : Int) - p.refY) gain p.remY).1) := by
  simp [pointerStep, hf, ht, hp]

theorem pointerStep_of_changed (hf : followedSlot c slots = some i) (ht : slots[i]? = some (some t))
    (hp : p.followed ≠ some i) :
    pointerStep p c slots gain = ({ followed := some i, refX := t.x, refY := t.y, remX := 0, remY := 0 }, 0, 0) := by
  simp [pointerStep, hf, ht, hp]

theorem pointerStep_of_none (hf : followedSlot c slots = none) :
    pointerStep p c slots gain = (if p.followed = none then p else p.cleared, 0, 0) := by
  simp only [pointerStep, hf]

end

/-- Settles O34. -/
theorem pointerMotion : Obligations.PointerMotion := by
  refine ⟨fun c slots => ⟨fun m => followedSlot_of_gathering slots, liveAt_iff slots, fun h => ?_,
    followedSlot_of_other slots⟩, fun delta rem n gain hn => ⟨?_, fun hlo hhi => ?_, fun _ => ?_⟩,
    fun p c slots gain => ⟨fun i t => pointerStep_of_same gain, fun i t => pointerStep_of_changed gain,
      fun hf hp => ?_, fun hf hp => ?_⟩⟩
  · rw [followedSlot_of_passive slots h, List.head?_map, List.head?_filter]
  · rw [hn]
    exact boundCount_eq _
  · obtain ⟨hrem, hsize⟩ := axisMotion_remainder_of_within hn hlo hhi
    rw [hrem]
    exact ⟨rfl, hsize⟩
  · exact axisMotion_remainder delta rem gain
  · rw [pointerStep_of_none gain hf, if_neg hp]
    rfl
  · rw [pointerStep_of_none gain hf, if_pos hp]

end Sys2Proof.Machine
end

section
/-! PROOFS. A context's clock and members, the joining of tracks, and the close (R99, R100, R109). -/

namespace Sys2Proof.Machine

/-! ## The clock and the members (R99) -/

theorem Context.tick_of_closed {c : Context} (h : c.state = .closed) (time : Half) (slots : List (Option Track)) :
    c.tick time slots = c := if_pos h

theorem Context.tick_of_not_closed {c : Context} (h : c.state ≠ .closed) (time : Half) (slots : List (Option Track)) :
    c.tick time slots = { c with
      elapsed := min 65535 (c.elapsed + (time.toNat + (65536 - c.lastSeen.toNat)) % 65536), lastSeen := time,
      members := c.members.map (Member.tick slots) } := by
  rw [Context.tick, if_neg h, BitVec.toNat_sub, Nat.add_comm time.toNat]

theorem Member.tick_of_ended {m : Member} (h : m.ended = true) (slots : List (Option Track)) :
    m.tick slots = { m with endedNow := false } := if_pos h

theorem Member.tick_of_remaining {m : Member} (h : m.ended = false) {slots : List (Option Track)} {t : Track}
    (ht : slots[m.slot]? = some (some t)) :
    m.tick slots = { m with
      lastX := t.x, lastY := t.y, excursion := max m.excursion (sqDist m.startX m.startY t.x t.y),
      ended := t.endMark, endedNow := t.endMark } := by
  have hget : slots.getD m.slot none = some t := by rw [List.getD_eq_getElem?_getD, ht, Option.getD_some]
  rw [Member.tick, if_neg (by rw [h]; exact Bool.false_ne_true), hget]

/-! ## Joining (R100) -/

theorem Context.takes_iff_state (c : Context) :
    c.takes = true ↔ c.state = .closed ∨ (c.state = .gathering ∧ c.members.length < 5) := by
  simp [Context.takes]

theorem Context.withMember_of_closed {c : Context} (h : c.state = .closed) (time : Half) (m : Member) :
    c.withMember time m = { Context.closed with state := .gathering, members := [m], lastSeen := time } := if_pos h

theorem Context.withMember_of_not_closed {c : Context} (h : c.state ≠ .closed) (time : Half) (m : Member) :
    c.withMember time m = { c with members := c.members ++ [m] } := if_neg h

/-- With none to take, the context and the track set stay. -/
theorem joinTracks_of_take_nil (time : Half) {ts : List (Nat × Track)} {c : Context} (slots : List (Option Track))
    (h : ts.take c.room = []) : joinTracks time ts c slots = (c, slots) := by
  rcases List.take_eq_nil_iff.1 h with hroom | rfl
  · exact joinTracks_full time ts c slots hroom
  · rfl

/-- The tracks of a surface that pass a test, a slot at a time. -/
theorem numbered_eq (f : Surface) (p : Track → Bool) (slots : List (Option Track)) :
    numbered f p slots = (List.range slots.length).filterMap (fun i => slots[i]?.join.bind (fun t =>
      if t.surface = f ∧ p t = true then some (i, t) else none)) := by
  refine List.filterMap_congr fun i _ => ?_
  rw [List.getD_eq_getElem?_getD]
  rcases slots[i]? with _ | _ | t <;> rfl

theorem mem_numbered {f : Surface} {p : Track → Bool} {slots : List (Option Track)} {x : Nat × Track} :
    x ∈ numbered f p slots ↔ slots[x.1]? = some (some x.2) ∧ x.2.surface = f ∧ p x.2 = true := by
  rw [numbered_eq, List.mem_filterMap]
  constructor
  · rintro ⟨i, -, hi⟩
    obtain ⟨t, ht, hx⟩ := Option.bind_eq_some_iff.1 hi
    obtain ⟨hp, ⟨⟩⟩ := Option.ite_none_right_eq_some.1 hx
    exact ⟨Option.join_eq_some_iff.1 ht, hp⟩
  · rintro ⟨ht, hp⟩
    obtain ⟨hlt, -⟩ := List.getElem?_eq_some_iff.1 ht
    exact ⟨x.1, List.mem_range.2 hlt, by rw [ht, Option.join_some, Option.bind_some, if_pos hp]⟩

/-! ## The close (R109) -/

theorem Track.stray_iff (t : Track) : t.stray = true ↔ t.state = .live ∧ t.endMark = false ∧ t.member = false := by
  simp [Track.stray, and_assoc]

theorem State.gestureClose_of_open {s : State} {f : Surface} (time : Half)
    (h : (s.unit f).context.state = .closed ∨ ∃ m ∈ (s.unit f).context.members, m.ended = false) :
    s.gestureClose f time = s := by
  refine if_neg fun ⟨hstate, hended⟩ => ?_
  rcases h with h | ⟨m, hm, hme⟩
  · exact hstate h
  · exact Bool.false_ne_true (hme.symm.trans (Context.allEnded_iff.1 hended m hm))

theorem State.gestureClose_of_ended {s : State} {f : Surface} (time : Half)
    (hstate : (s.unit f).context.state ≠ .closed) (hended : ∀ m ∈ (s.unit f).context.members, m.ended = true) :
    s.gestureClose f time =
      (s.setContext f (joinTracks time (numbered f Track.stray s.tracks.slots) Context.closed s.tracks.slots).1).setSlots
        (joinTracks time (numbered f Track.stray s.tracks.slots) Context.closed s.tracks.slots).2 :=
  if_pos ⟨hstate, Context.allEnded_iff.2 hended⟩

/-- With no stray the context closes. -/
theorem State.gestureClose_of_no_stray {s : State} {f : Surface} (time : Half)
    (hstate : (s.unit f).context.state ≠ .closed) (hended : ∀ m ∈ (s.unit f).context.members, m.ended = true)
    (hnone : numbered f Track.stray s.tracks.slots = []) :
    s.gestureClose f time = s.setContext f Context.closed := by
  rw [State.gestureClose_of_ended time hstate hended, hnone]
  rfl

/-- The member entry of a stray, which has no end mark. -/
theorem map_joins_of_strays {ts : List (Nat × Track)} (h : ∀ p ∈ ts, p.2.endMark = false) :
    ts.map (fun p => p.2.joins p.1) = ts.map (fun p => ({
      slot := p.1, startX := p.2.x, startY := p.2.y, lastX := p.2.x, lastY := p.2.y, excursion := 0,
      birthZone := p.2.birthZone, ended := false, endedNow := false } : Member)) :=
  List.map_congr_left fun p hp => by rw [Track.joins, h p hp]

/-- With strays the context opens again with the first five of them. -/
theorem State.gestureClose_of_strays {s : State} {f : Surface} (time : Half)
    (hstate : (s.unit f).context.state ≠ .closed) (hended : ∀ m ∈ (s.unit f).context.members, m.ended = true)
    (hsome : numbered f Track.stray s.tracks.slots ≠ []) :
    s.gestureClose f time = (s.setContext f { Context.closed with
        state := .gathering, lastSeen := time,
        members := ((numbered f Track.stray s.tracks.slots).take 5).map (fun p => p.2.joins p.1) }).setSlots
      (joinTracks time (numbered f Track.stray s.tracks.slots) Context.closed s.tracks.slots).2 := by
  have hfive : (numbered f Track.stray s.tracks.slots).take 5 ≠ [] := by simpa using hsome
  have hctx := joinTracks_context time (numbered f Track.stray s.tracks.slots) Context.closed s.tracks.slots
  rw [show Context.closed.room = 5 from rfl, foldl_withMember_closed time _ Context.closed rfl hfive] at hctx
  rw [State.gestureClose_of_ended time hstate hended, hctx]

/-- Settles O32. -/
theorem gestureClockAndMembers : Obligations.GestureClockAndMembers := by
  refine ⟨fun c time slots =>
      ⟨fun h => Context.tick_of_closed h time slots, fun h => Context.tick_of_not_closed h time slots⟩,
    fun m slots => ⟨fun h => Member.tick_of_ended h slots, fun t h ht => Member.tick_of_remaining h ht⟩,
    fun c time i t => ⟨c.takes_iff_state, fun h => Context.withMember_of_closed h time _,
      fun h => Context.withMember_of_not_closed h time _⟩,
    fun s f time => ⟨State.gestureClose_of_open time, fun hstate hended hnone => ?_, ?_⟩⟩
  · refine State.gestureClose_of_no_stray time hstate hended (List.eq_nil_iff_forall_not_mem.2 fun x hx => ?_)
    obtain ⟨hslot, hsurface, hstray⟩ := mem_numbered.1 hx
    obtain ⟨hlive, hmark, hmember⟩ := x.2.stray_iff.1 hstray
    rcases hnone x.2 (List.mem_of_getElem? hslot) hsurface hlive with h | h
    · exact Bool.false_ne_true (hmark.symm.trans h)
    · exact Bool.false_ne_true (hmember.symm.trans h)
  · rintro strays c rfl hstate hended hstrays hsome
    have heq : strays = numbered f Track.stray s.tracks.slots := by
      rw [hstrays, numbered_eq]
      refine List.filterMap_congr fun i _ => ?_
      rcases s.tracks.slots[i]? with _ | _ | t <;> simp [Track.stray_iff]
    clear hstrays
    subst heq
    refine ⟨_, joinTracks_slots time (numbered f Track.stray s.tracks.slots) Context.closed s.tracks.slots, ?_⟩
    rw [State.gestureClose_of_strays time hstate hended hsome, map_joins_of_strays fun p hp => ?_]
    · rfl
    · obtain ⟨-, -, hstray⟩ := mem_numbered.1 (List.mem_of_mem_take hp)
      exact (p.2.stray_iff.1 hstray).2.1

end Sys2Proof.Machine
end

section
/-! PROOFS. Wins, consume, the cancellation of a context and the active gesture (R105, R106, R107, R114). -/

namespace Sys2Proof.Machine

/-! ## A surface's context replaced -/

@[simp] theorem State.setContext_same (s : State) (f : Surface) (c : Context) :
    ((s.setContext f c).unit f).context = c := by
  rw [State.setContext, State.setUnit_same]

@[simp] theorem State.setSlots_unit (s : State) (slots : List (Option Track)) (f : Surface) :
    (s.setSlots slots).unit f = s.unit f := by
  cases f <;> rfl

/-! ## What a win does (R105) -/

theorem State.win_slots (s : State) (f : Surface) (row : Nat) (r : GestureRule) (i : Nat) :
    (s.win f row r).1.tracks.slots[i]? = s.tracks.slots[i]?.map (fun o =>
      if r.consume = true ∧ (∃ m ∈ (s.unit f).context.members, m.slot = i ∧ (m.ended = false ∨ m.endedNow = true))
      then o.map Track.consume else o) := by
  rw [State.win, State.setSlots_slots]
  by_cases hc : r.consume = true
  · rw [if_pos hc, consumeMembers_slots]
    simp only [hc, true_and]
  · rw [if_neg hc]
    simp [hc]

theorem State.win_context (s : State) (f : Surface) (row : Nat) (r : GestureRule) :
    ((s.win f row r).1.unit f).context = (s.unit f).context.won row r := by
  rw [State.win, State.setSlots_unit, State.setContext_same]

/-- A win changes the surface's context and the slots, and nothing else. -/
theorem State.win_frame (s : State) (f : Surface) (row : Nat) (r : GestureRule) :
    (s.win f row r).1 =
      (s.setContext f ((s.win f row r).1.unit f).context).setSlots (s.win f row r).1.tracks.slots := by
  rw [State.win_context]
  rfl

theorem Context.won_of_tap (c : Context) (row : Nat) {r : GestureRule} (h : r.kind = some .tap) : c.won row r = c :=
  if_pos h

theorem Context.won_of_not_tap (c : Context) (row : Nat) {r : GestureRule} (h : r.kind ≠ some .tap) :
    c.won row r =
      { c with state := .active, candidates := [], winner := some { row := row, rule := r }, progress := r.progress c } :=
  if_neg h

theorem winRecords_of_not_tap (f : Surface) {r : GestureRule} (h : r.kind ≠ some .tap) (c : Context) (btn : Buttons) :
    winRecords f r c btn = [gestureRecord f r .begin c (r.progress c)] := if_neg h

theorem winRecords_of_report {f : Surface} {r : GestureRule} (h : r.kind = some .tap) (hr : f = .panel ∨ r.action = .report)
    (c : Context) (btn : Buttons) :
    winRecords f r c btn = [gestureRecord f r .instant c ((c.elapsed / 10 : Nat) : Int)] := by
  have hclick : ¬ (f = .pad ∧ r.action ≠ .report) := by
    rintro ⟨hf, ha⟩
    rcases hr with rfl | hr
    · cases hf
    · exact ha hr
  rw [winRecords, if_pos h, if_neg hclick, GestureRule.progress_timed (.inr h)]

theorem winRecords_of_click {r : GestureRule} (h : r.kind = some .tap) (ha : r.action ≠ .report) (c : Context)
    (btn : Buttons) : winRecords .pad r c btn = tapClick r.action btn := by
  rw [winRecords, if_pos h, if_pos ⟨rfl, ha⟩]

/-! ## The pair of a tap-click (R114) -/

theorem tapClick_left (b : Button) :
    tapClick .left b.buttons = if b = .left then [] else
      [Record.pointer 0 0 { left := true, right := decide (b = .right), middle := false },
       Record.pointer 0 0 { left := false, right := decide (b = .right), middle := false }] := by
  cases b <;> rfl

theorem tapClick_right (b : Button) :
    tapClick .right b.buttons = if b = .right then [] else
      [Record.pointer 0 0 { left := decide (b = .left), right := true, middle := false },
       Record.pointer 0 0 { left := decide (b = .left), right := false, middle := false }] := by
  cases b <;> rfl

/-- The switch never holds the middle button. -/
theorem tapClick_middle (b : Button) :
    tapClick .middle b.buttons =
      [Record.pointer 0 0 { left := decide (b = .left), right := decide (b = .right), middle := true },
       Record.pointer 0 0 { left := decide (b = .left), right := decide (b = .right), middle := false }] := by
  cases b <;> rfl

/-! ## Consume (R105) -/

theorem Track.consume_of_not_live {t : Track} (h : t.state ≠ .live) : t.consume = t := if_neg h

theorem Track.consume_of_pad {t : Track} (h : t.state = .live) (hf : t.surface = .pad) :
    t.consume = { t with state := .held .gesture } := by
  rw [Track.consume, if_pos h, if_pos hf]

theorem Track.consume_of_panel {t : Track} (h : t.state = .live) (hf : t.surface = .panel) :
    t.consume = { t with
      state := .held .gesture,
      due := if Phase.up ∈ t.due then t.due.map (fun p => if p = .up then .cancel else p) else t.due ++ [.cancel] } := by
  rw [Track.consume, if_pos h, if_neg (by rw [hf]; decide)]
  simp only [List.contains_iff_mem]

/-! ## Cancellation (R107; log entry 24) -/

theorem Context.claims_iff (c : Context) :
    c.claims = true ↔ c.state = .gathering ∨ c.state = .candidate ∨ c.state = .active := by
  simp [Context.claims, or_assoc]

theorem Context.lostMember_iff (c : Context) (held : List Nat) :
    c.lostMember held = true ↔
      (c.state = .gathering ∨ c.state = .candidate ∨ c.state = .active ∨ c.state = .passive) ∧
        ∃ m ∈ c.members, m.slot ∈ held ∧ (m.ended = false ∨ m.endedNow = true) := by
  simp [Context.lostMember, Context.claims_iff, or_assoc]

section
variable {s : State} {f : Surface} {held : List Nat} {ink : Bool}

theorem State.gestureCancels_of_lost (h : (s.unit f).context.lostMember held = true) :
    s.gestureCancels f held ink = s.cancelContext f := if_pos h

/-- Ink cancels a claiming context of the panel, whether or not it lost a member. -/
theorem State.gestureCancels_of_ink (hf : f = .panel) (h : (s.unit f).context.claims = true) :
    s.gestureCancels f held true = s.cancelContext f := by
  have hink : (true && f == .panel && (s.unit f).context.claims) = true := by rw [h, hf]; rfl
  rw [State.gestureCancels, if_pos hink, ite_self]

/-- Ink that does not fall, or falls on the pad or on a context without a claim, cancels nothing. -/
theorem Context.not_inked {c : Context} (hink : ink = false ∨ f = .pad ∨ c.claims = false) :
    ¬ (ink && f == .panel && c.claims) = true := by
  rcases hink with h | h | h <;> simp [h]

theorem State.gestureCancels_of_no_winner (hlost : (s.unit f).context.lostMember held = false)
    (hink : ink = false ∨ f = .pad ∨ (s.unit f).context.claims = false)
    (h : (s.unit f).context.state ≠ .active ∨ (s.unit f).context.winner = none) :
    s.gestureCancels f held ink = (s, []) := by
  rw [State.gestureCancels, if_neg (Bool.eq_false_iff.1 hlost), if_neg (Context.not_inked hink)]
  split
  next w hstate hwinner =>
    rcases h with h | h
    · exact absurd hstate h
    · exact absurd (h.symm.trans hwinner) (Option.some_ne_none w).symm
  next => rfl

/-- A context that neither a held member nor ink cancels reads its winning row, and goes on unless it is inert. -/
theorem State.gestureCancels_of_winner {w : Winner} (hlost : (s.unit f).context.lostMember held = false)
    (hink : ink = false ∨ f = .pad) (hstate : (s.unit f).context.state = .active)
    (hwinner : (s.unit f).context.winner = some w) :
    s.gestureCancels f held ink =
      if (s.rule w.row).inert = true then State.cancelContext (s.readActive .gesture w.row) f
      else (s.readActive .gesture w.row, []) := by
  rw [State.gestureCancels, if_neg (Bool.eq_false_iff.1 hlost), if_neg (Context.not_inked (hink.imp_right .inl)), hstate,
    hwinner]

end

/-! ## The active gesture (R105) -/

section
variable {s : State} {f : Surface} {w : Winner}

theorem State.gestureProgress_of_few (hw : (s.unit f).context.winner = some w)
    (h : ((s.unit f).context.members.filter (fun m => !m.ended)).length < w.rule.fingers) :
    s.gestureProgress f = (s.setContext f { (s.unit f).context with state := .finishing },
      [gestureRecord f w.rule .finish (s.unit f).context (s.unit f).context.progress]) := by
  rw [State.gestureProgress]
  simp only [hw]
  exact if_pos h

theorem State.gestureProgress_of_enough (hw : (s.unit f).context.winner = some w)
    (h : w.rule.fingers ≤ ((s.unit f).context.members.filter (fun m => !m.ended)).length) :
    s.gestureProgress f =
      if w.rule.progress (s.unit f).context = (s.unit f).context.progress then (s, [])
      else (s.setContext f { (s.unit f).context with progress := w.rule.progress (s.unit f).context },
        [gestureRecord f w.rule .update (s.unit f).context (w.rule.progress (s.unit f).context)]) := by
  rw [State.gestureProgress]
  simp only [hw]
  exact if_neg (Nat.not_lt_of_le h)

end

/-- Settles O33. -/
theorem gestureWinsAndCancels : Obligations.GestureWinsAndCancels := by
  refine ⟨?_, fun t => ⟨Track.consume_of_not_live, Track.consume_of_pad, fun h hf hup => ?_, fun h hf hup => ?_⟩, ?_, ?_⟩
  · rintro s f row r c rfl
    refine ⟨s.win_slots f row r, s.win_frame f row r, fun h => ⟨?_, winRecords_of_not_tap f h _ _⟩,
      fun h => ⟨?_, fun hr => winRecords_of_report h hr _ _, ?_, ?_, ?_⟩⟩
    · rw [State.win_context, Context.won_of_not_tap _ row h]
    · rw [State.win_context, Context.won_of_tap _ row h]
    · rintro rfl ha
      exact (winRecords_of_click h (by rw [ha]; decide) _ _).trans (by rw [ha, tapClick_left])
    · rintro rfl ha
      exact (winRecords_of_click h (by rw [ha]; decide) _ _).trans (by rw [ha, tapClick_right])
    · rintro rfl ha
      exact (winRecords_of_click h (by rw [ha]; decide) _ _).trans (by rw [ha, tapClick_middle])
  · rw [Track.consume_of_panel h hf, if_neg hup]
  · rw [Track.consume_of_panel h hf, if_pos hup]
  · rintro s f c rfl
    have hclaims : (s.unit f).context.claims = false ↔ (s.unit f).context.state ≠ .gathering ∧
        (s.unit f).context.state ≠ .candidate ∧ (s.unit f).context.state ≠ .active := by
      rw [← Bool.not_eq_true, Context.claims_iff, not_or, not_or]
    refine ⟨rfl, Context.lostMember_iff _, fun held ink => State.gestureCancels_of_lost,
      fun held hf h => State.gestureCancels_of_ink hf ((Context.claims_iff _).2 h), fun held ink hlost hink => ?_,
      fun held ink w => State.gestureCancels_of_winner⟩
    rw [← hclaims] at hink
    exact State.gestureCancels_of_no_winner hlost hink
  · rintro s f c w rfl hw
    refine ⟨State.gestureProgress_of_few hw, fun h hp => ?_, fun h hp => ?_⟩
    · rw [State.gestureProgress_of_enough hw h, if_pos hp]
    · rw [State.gestureProgress_of_enough hw h, if_neg hp]
      rfl

end Sys2Proof.Machine
end

section
/-! PROOFS. The gesture step in its order: joining, the gathering and its early end, and the candidate set (R96, R98, R100
to R103, R132). -/

namespace Sys2Proof.Machine

/-! ## The order of the step (R98) -/

theorem State.gestureBody_of_active {s : State} {f : Surface} (h : (s.unit f).context.state = .active) (gather : Nat) :
    s.gestureBody f gather = s.gestureProgress f := if_pos h

theorem State.gestureBody_of_not_active {s : State} {f : Surface} (h : (s.unit f).context.state ≠ .active)
    (gather : Nat) :
    s.gestureBody f gather =
      (((s.gestureGather f gather).1.gestureEvaluate f).1,
        (s.gestureGather f gather).2 ++ ((s.gestureGather f gather).1.gestureEvaluate f).2) := if_neg h

/-- The clock, the cancellations due, the joining, the body and the close, each on the state that the one before leaves. -/
theorem State.gestureStep_eq (s : State) (f : Surface) (time : Half) (gather : Nat) (held : List Nat) (ink : Bool)
    {b c e : State} {cancels reports : List Record} (hb : (s.gestureClock f time).gestureCancels f held ink = (b, cancels))
    (hc : b.gestureJoins f time = c) (he : c.gestureBody f gather = (e, reports)) :
    s.gestureStep f time gather held ink = (e.gestureClose f time, cancels ++ reports) := by
  simp only [State.gestureStep, andThen, hb, hc, he]

/-! ## Joining (R100) -/

theorem Track.confirmedNow_iff (t : Track) : t.confirmedNow = true ↔ t.state = .live ∧ Phase.down ∈ t.due := by
  simp [Track.confirmedNow]

/-- The tracks that became LIVE in the frame, a slot at a time. -/
theorem numbered_confirmedNow (f : Surface) (slots : List (Option Track)) :
    numbered f Track.confirmedNow slots = (List.range slots.length).filterMap (fun i => slots[i]?.join.bind (fun t =>
      if t.surface = f ∧ t.state = .live ∧ Phase.down ∈ t.due then some (i, t) else none)) := by
  simp only [numbered_eq, Track.confirmedNow_iff]

theorem Context.take_room {α : Type} (c : Context) (ts : List α) :
    ts.take c.room = if c.state = .closed then ts.take 5 else if c.state = .gathering then ts.take (5 - c.members.length)
      else [] := by
  rw [Context.room]
  cases c.state <;> simp

section
variable {s : State} {f : Surface} (time : Half)

theorem State.gestureJoins_of_none
    (h : (numbered f Track.confirmedNow s.tracks.slots).take (s.unit f).context.room = []) :
    s.gestureJoins f time = s := by
  rw [State.gestureJoins, joinTracks_of_take_nil time _ h]
  exact State.setContext_self s f

theorem State.gestureJoins_of_closed (hc : (s.unit f).context.state = .closed)
    (h : (numbered f Track.confirmedNow s.tracks.slots).take (s.unit f).context.room ≠ []) :
    s.gestureJoins f time = (s.setContext f { Context.closed with
        state := .gathering, lastSeen := time,
        members := ((numbered f Track.confirmedNow s.tracks.slots).take (s.unit f).context.room).map
          (fun p => p.2.joins p.1) }).setSlots
      (joinTracks time (numbered f Track.confirmedNow s.tracks.slots) (s.unit f).context s.tracks.slots).2 := by
  rw [State.gestureJoins, joinTracks_context, foldl_withMember_closed time _ _ hc h]

theorem State.gestureJoins_of_gathering (hc : (s.unit f).context.state = .gathering) :
    s.gestureJoins f time = (s.setContext f { (s.unit f).context with
        members := (s.unit f).context.members ++
          ((numbered f Track.confirmedNow s.tracks.slots).take (s.unit f).context.room).map (fun p => p.2.joins p.1) }).setSlots
      (joinTracks time (numbered f Track.confirmedNow s.tracks.slots) (s.unit f).context s.tracks.slots).2 := by
  rw [State.gestureJoins, joinTracks_context, foldl_withMember_gathering time _ _ hc]

end

/-! ## The rows read and selected (R96, R101, R132) -/

theorem GestureRule.inert_iff (r : GestureRule) :
    r.inert = true ↔ r.enabled = false ∨ r.surface = none ∨ r.kind = none ∨ r.fingers < 1 ∨ 5 < r.fingers ∨ r.code = 0 := by
  simp [GestureRule.inert, or_assoc]

/-- A row with its mark or an uncorrectable error is used as the inert row bytes. -/
theorem State.rule_eq (s : State) (n : Nat) :
    s.rule n = ruleOf
      (if (s.store.row .gesture (s.store.active .gesture) n).integrity = .uncorrectable ∨
          (s.store.row .gesture (s.store.active .gesture) n).inert = true then List.replicate 16 0x00#8
        else (s.store.row .gesture (s.store.active .gesture) n).bytes) := by
  rw [State.rule, State.activeBytes, State.viewRow, StoredRow.used_view]
  rfl

theorem Context.selects_iff (f : Surface) (c : Context) (r : GestureRule) :
    c.selects f r = true ↔ r.enabled = true ∧ r.kind ≠ none ∧ 1 ≤ r.fingers ∧ r.fingers ≤ 5 ∧ r.code ≠ 0 ∧
      r.surface = some f ∧ r.fingers = c.members.length ∧ (r.edge = false ∨ ∀ m ∈ c.members, m.birthZone = .edge) := by
  have hlive : r.inert = false ↔ r.enabled = true ∧ r.surface ≠ none ∧ r.kind ≠ none ∧ 1 ≤ r.fingers ∧ r.fingers ≤ 5 ∧
      r.code ≠ 0 := by
    rw [← Bool.not_eq_true, GestureRule.inert_iff]
    simp only [not_or, Bool.not_eq_false, Nat.not_lt, ne_eq]
  have hsel : c.selects f r = true ↔ r.inert = false ∧ r.surface = some f ∧ r.fingers = c.members.length ∧
      (r.edge = false ∨ ∀ m ∈ c.members, m.birthZone = .edge) := by
    simp [Context.selects, and_assoc]
  rw [hsel, hlive]
  constructor
  · rintro ⟨⟨henabled, -, hkind, hlo, hhi, hcode⟩, hsurface, hrest⟩
    exact ⟨henabled, hkind, hlo, hhi, hcode, hsurface, hrest⟩
  · rintro ⟨henabled, hkind, hlo, hhi, hcode, hsurface, hrest⟩
    exact ⟨⟨henabled, by rw [hsurface]; exact Option.some_ne_none f, hkind, hlo, hhi, hcode⟩, hsurface, hrest⟩

/-- The row numbers selected of a list that is read in order. -/
theorem Context.selected_rows (f : Surface) (c : Context) (s : State) (rows : List Nat) :
    (c.selected f (s.rules rows)).map Prod.fst = rows.filter (fun n => c.selects f (s.rule n)) := by
  rw [Context.selected_rules, List.map_map]
  exact List.map_id _

/-- The first row selected that passes a test, of a list that is read in order. -/
theorem Context.find_selected (f : Surface) (c : Context) (s : State) (rows : List Nat) (q : GestureRule → Bool) :
    (c.selected f (s.rules rows)).find? (fun p => q p.2) =
      ((rows.filter (fun n => c.selects f (s.rule n))).find? (fun n => q (s.rule n))).map (fun n => (n, s.rule n)) := by
  rw [Context.selected_rules, List.find?_map]
  rfl

/-! ## The gathering (R101, R102) -/

section
variable {s : State} {f : Surface} {gather : Nat}

theorem State.gestureGather_of_not_gathering (h : (s.unit f).context.state ≠ .gathering) :
    s.gestureGather f gather = (s, []) := if_neg h

theorem State.gestureGather_of_open (h : (s.unit f).context.state = .gathering)
    (hwindow : (s.unit f).context.elapsed < 10 * gather)
    (hdown : ∃ m ∈ (s.unit f).context.members, m.ended = false) : s.gestureGather f gather = (s, []) := by
  obtain ⟨m, hm, hme⟩ := hdown
  have hended : ¬ (s.unit f).context.allEnded = true := fun hall =>
    Bool.false_ne_true (hme.symm.trans (Context.allEnded_iff.1 hall m hm))
  rw [State.gestureGather, if_pos h, if_neg (Nat.not_le_of_lt hwindow), if_neg hended]

/-- The window has run: the anchor is taken and the rows are selected. -/
theorem State.gestureGather_of_window (h : (s.unit f).context.state = .gathering)
    (hwindow : 10 * gather ≤ (s.unit f).context.elapsed) {set : List Nat}
    (hset : set = allRules.filter (fun n => (s.unit f).context.selects f (s.rule n))) :
    s.gestureGather f gather =
      ((s.afterRules allRules).setContext f { (s.unit f).context with
          anchor := some (figure (s.unit f).context.members), candidates := set, recompute := false,
          state := if set = [] then .passive else .candidate }, []) := by
  rw [State.gestureGather, if_pos h, if_pos hwindow, State.gatherClose, Context.selected_rows, ← hset]
  simp only [List.isEmpty_iff]

theorem State.gestureGather_of_early (h : (s.unit f).context.state = .gathering)
    (hwindow : (s.unit f).context.elapsed < 10 * gather)
    (hended : ∀ m ∈ (s.unit f).context.members, m.ended = true) : s.gestureGather f gather = s.earlyEnd f := by
  rw [State.gestureGather, if_pos h, if_neg (Nat.not_le_of_lt hwindow), if_pos (Context.allEnded_iff.2 hended)]

/-- A TAP row that the early end takes. -/
def State.tapRow (s : State) (f : Surface) (n : Nat) : Bool :=
  (s.unit f).context.selects f (s.rule n) && ((s.rule n).kind == some .tap && (s.rule n).satisfied (s.unit f).context)

theorem State.tapRow_iff (s : State) (f : Surface) (n : Nat) :
    s.tapRow f n = true ↔ (s.unit f).context.selects f (s.rule n) = true ∧ (s.rule n).kind = some .tap ∧
      (s.rule n).satisfied (s.unit f).context = true := by
  rw [State.tapRow, Bool.and_eq_true, Bool.and_eq_true, beq_iff_eq]

theorem State.find_tapRow {o : Option Nat} (h : allRules.find? (s.tapRow f) = o) :
    ((s.unit f).context.selected f (s.rules allRules)).find?
        (fun p => p.2.kind == some .tap && p.2.satisfied (s.unit f).context) =
      o.map (fun n => (n, s.rule n)) := by
  rw [← h, Context.find_selected f _ s allRules (fun r => r.kind == some .tap && r.satisfied (s.unit f).context),
    List.find?_filter]
  simp only [Bool.decide_and, Bool.decide_eq_true]
  rfl

theorem State.earlyEnd_of_first {n : Nat} (hn : n < 32) (htap : s.tapRow f n = true)
    (hfirst : ∀ m < n, s.tapRow f m = false) :
    s.earlyEnd f = (s.afterRules allRules).win f n (s.rule n) := by
  have hfind : allRules.find? (s.tapRow f) = some n :=
    List.find?_range_eq_some.2 ⟨htap, List.mem_range.2 hn, fun m hm => by rw [hfirst m hm]; rfl⟩
  unfold State.earlyEnd
  dsimp only
  rw [State.find_tapRow hfind]
  rfl

theorem State.earlyEnd_of_none (h : ∀ n < 32, s.tapRow f n = false) : s.earlyEnd f = (s.afterRules allRules, []) := by
  have hfind : allRules.find? (s.tapRow f) = none :=
    List.find?_range_eq_none.2 fun n hn => by rw [h n hn]; rfl
  unfold State.earlyEnd
  dsimp only
  rw [State.find_tapRow hfind]
  rfl

end

/-! ## The candidate set made anew (R103) -/

theorem State.setContext_setContext (s : State) (f : Surface) (c d : Context) :
    (s.setContext f c).setContext f d = s.setContext f d := by
  cases f <;> rfl

theorem State.afterReads_setContext (t : Table) (k : Bank) (ns : List Nat) (s : State) (f : Surface) (c : Context) :
    State.afterReads t k ns (s.setContext f c) = (State.afterReads t k ns s).setContext f c := by
  induction ns generalizing s with
  | nil => rfl
  | cons n ns ih =>
    have hread : (s.setContext f c).afterRead t k n = (s.afterRead t k n).setContext f c := by cases f <;> rfl
    rw [State.afterReads, hread, ih]
    rfl

/-- Reads of GESTURE rows leave every row as the next reader uses it. -/
theorem State.rule_afterRules (s : State) (rows : List Nat) : (s.afterRules rows).rule = s.rule := by
  funext n
  rw [State.rule, State.activeBytes, State.viewRow, State.afterRules, State.afterReads_active, State.used_afterReads]
  rfl

theorem State.rule_setContext (s : State) (f : Surface) (c : Context) : (s.setContext f c).rule = s.rule := rfl

/-- The context as a step evaluates it, its set made anew where a recompute is due. -/
def State.refreshed (s : State) (f : Surface) : Context :=
  { (s.unit f).context with
    candidates := if (s.unit f).context.recompute = true then
        allRules.filter (fun n => (s.unit f).context.selects f (s.rule n))
      else (s.unit f).context.candidates,
    recompute := false }

theorem State.recompute_eq (s : State) (f : Surface) :
    s.recompute f =
      (if (s.unit f).context.recompute = true then s.afterRules allRules else s).setContext f (s.refreshed f) := by
  rw [State.recompute, State.refreshed, Context.selected_rows]
  by_cases h : (s.unit f).context.recompute = true
  · simp only [if_pos h]
  · have hsame : { (s.unit f).context with recompute := false } = (s.unit f).context := by
      rw [← Bool.eq_false_iff.2 h]
    simp only [if_neg h, hsame]
    exact (State.setContext_self s f).symm

theorem State.recompute_context (s : State) (f : Surface) : ((s.recompute f).unit f).context = s.refreshed f := by
  rw [State.recompute_eq, State.setContext_same]

theorem State.rule_recompute (s : State) (f : Surface) : (s.recompute f).rule = s.rule := by
  rw [State.recompute_eq, State.rule_setContext]
  split
  · exact s.rule_afterRules allRules
  · rfl

theorem State.afterRules_recompute (s : State) (f : Surface) (rows : List Nat) :
    (s.recompute f).afterRules rows =
      (State.afterReads .gesture (s.store.active .gesture) rows
        (if (s.unit f).context.recompute = true then s.afterRules allRules else s)).setContext f (s.refreshed f) := by
  have hactive : (s.recompute f).store.active .gesture = s.store.active .gesture := by
    rw [State.recompute_eq, State.setContext_store]
    split
    · exact State.afterReads_active .gesture _ allRules s .gesture
    · rfl
  rw [State.afterRules, hactive, State.recompute_eq, State.afterReads_setContext]

/-! ## The evaluation (R103) -/

section
variable {s : State} {f : Surface}

theorem State.gestureEvaluate_of_not_candidate (h : (s.unit f).context.state ≠ .candidate) :
    s.gestureEvaluate f = (s, []) := if_neg h

theorem State.gestureEvaluate_of_candidate (h : (s.unit f).context.state = .candidate) :
    s.gestureEvaluate f = (s.recompute f).evaluateRules f := if_pos h

/-- The first row satisfied, of those still selected, wins. -/
theorem State.evaluateRules_of_first {before after : List Nat} {n : Nat}
    (hleft : (s.unit f).context.candidates.filter (fun n => (s.unit f).context.selects f (s.rule n)) =
      before ++ n :: after)
    (hn : (s.rule n).satisfied (s.unit f).context = true)
    (hbefore : ∀ m ∈ before, (s.rule m).satisfied (s.unit f).context = false) :
    s.evaluateRules f = (s.afterRules (s.unit f).context.candidates).win f n (s.rule n) := by
  have hfind : (before ++ n :: after).find? (fun n => (s.rule n).satisfied (s.unit f).context) = some n :=
    List.find?_eq_some_iff_append.2 ⟨hn, before, after, rfl, fun m hm => by rw [hbefore m hm]; rfl⟩
  rw [State.evaluateRules, Context.find_selected f _ s _ (fun r => r.satisfied (s.unit f).context), hleft, hfind]
  rfl

/-- With no row satisfied, those that can no longer be satisfied leave; an empty set leaves PASSIVE. -/
theorem State.evaluateRules_of_none {left kept : List Nat}
    (hleft : left = (s.unit f).context.candidates.filter (fun n => (s.unit f).context.selects f (s.rule n)))
    (hkept : kept = left.filter (fun n => !(s.rule n).struck (s.unit f).context))
    (hnone : ∀ n ∈ left, (s.rule n).satisfied (s.unit f).context = false) :
    s.evaluateRules f = ((s.afterRules (s.unit f).context.candidates).setContext f { (s.unit f).context with
      candidates := kept, state := if kept = [] then .passive else .candidate }, []) := by
  have hfind : left.find? (fun n => (s.rule n).satisfied (s.unit f).context) = none :=
    List.find?_eq_none.2 fun n hn => Bool.eq_false_iff.1 (hnone n hn)
  have hrows : (((s.unit f).context.selected f (s.rules (s.unit f).context.candidates)).filter
      (fun p => !p.2.struck (s.unit f).context)).map Prod.fst = kept := by
    rw [Context.selected_rules, ← hleft, List.filter_map, List.map_map, hkept]
    exact List.map_id _
  rw [State.evaluateRules, Context.find_selected f _ s _ (fun r => r.satisfied (s.unit f).context), ← hleft, hfind, hrows]
  simp only [Option.map_none, List.isEmpty_iff]

/-- The winner is judged by the context as it stood, and taken after all rows, where a recompute is due, and then those of the
set have been read. -/
theorem State.gestureEvaluate_of_first (h : (s.unit f).context.state = .candidate) {before after : List Nat} {n : Nat}
    (hleft : (s.refreshed f).candidates.filter (fun n => (s.unit f).context.selects f (s.rule n)) = before ++ n :: after)
    (hn : (s.rule n).satisfied (s.unit f).context = true)
    (hbefore : ∀ m ∈ before, (s.rule m).satisfied (s.unit f).context = false) :
    s.gestureEvaluate f = State.win
      ((State.afterReads .gesture (s.store.active .gesture) (s.refreshed f).candidates
        (if (s.unit f).context.recompute = true then s.afterRules allRules else s)).setContext f (s.refreshed f))
      f n (s.rule n) := by
  have hwin := State.evaluateRules_of_first (s := s.recompute f) (f := f) (before := before) (after := after) (n := n)
  rw [State.recompute_context, State.rule_recompute, State.afterRules_recompute] at hwin
  rw [State.gestureEvaluate_of_candidate h]
  exact hwin hleft hn hbefore

theorem State.gestureEvaluate_of_none (h : (s.unit f).context.state = .candidate) {left kept : List Nat}
    (hleft : left = (s.refreshed f).candidates.filter (fun n => (s.unit f).context.selects f (s.rule n)))
    (hkept : kept = left.filter (fun n => !(s.rule n).struck (s.unit f).context))
    (hnone : ∀ n ∈ left, (s.rule n).satisfied (s.unit f).context = false) :
    s.gestureEvaluate f =
      ((State.afterReads .gesture (s.store.active .gesture) (s.refreshed f).candidates
        (if (s.unit f).context.recompute = true then s.afterRules allRules else s)).setContext f { s.refreshed f with
          candidates := kept, state := if kept = [] then .passive else .candidate }, []) := by
  have hkeep := State.evaluateRules_of_none (s := s.recompute f) (f := f) (left := left) (kept := kept)
  rw [State.recompute_context, State.rule_recompute, State.afterRules_recompute, State.setContext_setContext] at hkeep
  rw [State.gestureEvaluate_of_candidate h]
  exact hkeep hleft hkept hnone

end

/-! ## The rows struck off (R103) -/

section
variable {r : GestureRule} {c : Context}

theorem GestureRule.inTime_eq_false_iff : r.inTime c = false ↔ r.timeMax ≠ 0 ∧ r.timeMax * 100 < c.elapsed := by
  rw [← Bool.not_eq_true, GestureRule.inTime_iff, not_or, Nat.not_le, and_comm]

theorem GestureRule.still_eq_false_iff :
    r.still c = false ↔ ∃ m ∈ c.members, r.distance * r.distance ≤ m.excursion := by
  simp [GestureRule.still]

theorem Context.allEnded_eq_false_iff : c.allEnded = false ↔ ∃ m ∈ c.members, m.ended = false := by
  simp [Context.allEnded]

theorem Context.noneEnded_eq_false_iff : c.noneEnded = false ↔ ∃ m ∈ c.members, m.ended = true := by
  simp [Context.noneEnded]

theorem GestureRule.struck_tap (h : r.kind = some .tap) :
    r.struck c = true ↔ (r.inTime c = false ∧ c.allEnded = false) ∨ r.still c = false := by
  rw [GestureRule.struck, h]
  simp

theorem GestureRule.struck_hold (h : r.kind = some .hold) :
    r.struck c = true ↔ c.noneEnded = false ∨ r.still c = false := by
  rw [GestureRule.struck, h]
  simp

theorem GestureRule.struck_swipe (h : r.kind = some .swipeLeft ∨ r.kind = some .swipeRight ∨ r.kind = some .swipeUp ∨
    r.kind = some .swipeDown) : r.struck c = true ↔ c.noneEnded = false ∨ r.inTime c = false := by
  rcases h with h | h | h | h <;> simp [GestureRule.struck, h]

theorem GestureRule.struck_pinch (h : r.kind = some .pinchIn ∨ r.kind = some .pinchOut) :
    r.struck c = true ↔ c.noneEnded = false := by
  rcases h with h | h <;> simp [GestureRule.struck, h]

end

/-! ## The statement's parts -/

/-- Steps 1 to 7 in order: an ACTIVE context reports in place of gathering and being evaluated (R98). -/
theorem gestureStep_in_order (s : State) (f : Surface) (time : Half) (gather : Nat) (held : List Nat) (ink : Bool) :
    ∃ (a b c d e : State) (cancels gathers rest : List Record),
      a = s.setContext f ((s.unit f).context.tick time s.tracks.slots) ∧ (b, cancels) = a.gestureCancels f held ink ∧
      c = b.gestureJoins f time ∧
      ((c.unit f).context.state = .active → gathers = [] ∧ (e, rest) = c.gestureProgress f) ∧
      ((c.unit f).context.state ≠ .active →
        (d, gathers) = c.gestureGather f gather ∧ (e, rest) = d.gestureEvaluate f) ∧
      s.gestureStep f time gather held ink = (e.gestureClose f time, cancels ++ gathers ++ rest) := by
  generalize hb : (s.gestureClock f time).gestureCancels f held ink = bc
  obtain ⟨b, cancels⟩ := bc
  generalize hc : b.gestureJoins f time = c
  by_cases hactive : (c.unit f).context.state = .active
  · refine ⟨_, b, c, c, _, cancels, [], _, rfl, hb.symm, hc.symm, fun _ => ⟨rfl, rfl⟩, fun h => absurd hactive h, ?_⟩
    rw [List.append_nil]
    exact State.gestureStep_eq s f time gather held ink hb hc (State.gestureBody_of_active hactive gather)
  · refine ⟨_, b, c, _, _, cancels, _, _, rfl, hb.symm, hc.symm, fun h => absurd h hactive, fun _ => ⟨rfl, rfl⟩, ?_⟩
    rw [List.append_assoc]
    exact State.gestureStep_eq s f time gather held ink hb hc (State.gestureBody_of_not_active hactive gather)

/-- Settles O60. -/
theorem gestureStepInOrder : Obligations.GestureStepInOrder := by
  refine ⟨gestureStep_in_order, ?_, ?_, fun r c late wide gone hlate hwide hgone => ?_, GestureRule.inert_iff⟩
  · rintro s f time c fresh joining rfl hfresh hjoining
    have heq : fresh = numbered f Track.confirmedNow s.tracks.slots := by
      rw [hfresh, numbered_confirmedNow]
      refine List.filterMap_congr fun i _ => ?_
      rcases s.tracks.slots[i]? with _ | _ | t <;> rfl
    rw [← Context.take_room, heq] at hjoining
    clear heq hfresh
    subst hjoining
    refine ⟨_, joinTracks_slots time (numbered f Track.confirmedNow s.tracks.slots) (s.unit f).context s.tracks.slots,
      State.gestureJoins_of_none time, fun h hc => State.gestureJoins_of_closed time hc h,
      fun _ => State.gestureJoins_of_gathering time⟩
  · rintro s f c rule fits taps all rfl hrule hfits htaps rfl
    obtain rfl : rule = s.rule := funext fun n => (hrule n _ rfl).trans (s.rule_eq n).symm
    obtain rfl : fits = fun n => (s.unit f).context.selects f (s.rule n) :=
      funext fun n => Bool.eq_iff_iff.2 ((hfits n).trans (Context.selects_iff f _ _).symm)
    obtain rfl : taps = s.tapRow f := funext fun n => Bool.eq_iff_iff.2 ((htaps n).trans (s.tapRow_iff f n).symm)
    refine ⟨fun gather => ⟨State.gestureGather_of_not_gathering, State.gestureGather_of_open,
      fun h hwindow => State.gestureGather_of_window h hwindow rfl, fun h hwindow hended => ?_⟩,
      State.gestureEvaluate_of_not_candidate, ?_⟩
    · rw [State.gestureGather_of_early h hwindow hended]
      exact ⟨fun n hn => State.earlyEnd_of_first hn, State.earlyEnd_of_none⟩
    · rintro set left kept read hcandidate hset rfl hleft hkept
      obtain rfl : set = (s.refreshed f).candidates := hset
      exact ⟨fun before n after hsplit => State.gestureEvaluate_of_first hcandidate (hleft.symm.trans hsplit),
        State.gestureEvaluate_of_none hcandidate hleft hkept⟩
  · rw [hlate, hwide, hgone, ← GestureRule.inTime_eq_false_iff, ← GestureRule.still_eq_false_iff,
      ← Context.allEnded_eq_false_iff, ← Context.noneEnded_eq_false_iff]
    exact ⟨GestureRule.struck_tap, GestureRule.struck_hold, GestureRule.struck_swipe, GestureRule.struck_pinch⟩

end Sys2Proof.Machine
end

section
/-! PROOFS. The frame holds and the Row Fault List through every step (R118, R126, R133). -/

namespace Sys2Proof.Machine

/-! ## The frame-hold count (R118) -/

theorem Moves.unitOp {s t : State} (h : Moves s t) (f : Surface) : (t.unit f).op.isSome = (s.unit f).op.isSome := by
  cases f
  · exact h.padOp
  · exact h.panelOp

/-- The operations in progress, that of one surface last. -/
theorem State.operations_eq (s : State) (f : Surface) :
    s.operations = (s.unit (otherSurface f)).op.isSome.toNat + s.pen.op.isSome.toNat + (s.unit f).op.isSome.toNat := by
  unfold State.operations
  cases f
  · exact (Nat.add_assoc _ _ _).trans (Nat.add_comm _ _)
  · exact Nat.add_right_comm _ _ _

/-- A surface's operation begins with a hold (R21, R118). -/
theorem HoldsInv.takenSense {s : State} (h : HoldsInv s) {f : Surface} (ho : (s.unit f).op = none) (fr : SenseFrame) :
    HoldsInv (s.takenSense f fr) := by
  have hreads : Moves s (s.afterSnapshot f) := (Moves.readPosture s).trans (Moves.readActive _ _ _)
  have hholds : (s.takenSense f fr).store.holds = s.store.holds + 1 := congrArg (· + 1) hreads.holds
  have hops : (s.takenSense f fr).operations = s.operations + 1 := by
    rw [State.operations_eq s f, ho, State.operations_eq _ f]
    cases f <;> rfl
  exact hholds.trans ((congrArg (· + 1) h).trans hops.symm)

/-- A pen frame's operation begins with a hold (R60, R118). -/
theorem HoldsInv.takenPen {s : State} (h : HoldsInv s) (ho : s.pen.op = none) (fr : PenFrame) :
    HoldsInv (s.takenPen fr) := by
  have hholds : (s.takenPen fr).store.holds = s.store.holds + 1 := congrArg (· + 1) (Moves.readPosture s).holds
  have hops : (s.takenPen fr).operations = s.operations + 1 := by
    unfold State.operations
    rw [ho]
    rfl
  exact hholds.trans ((congrArg (· + 1) h).trans hops.symm)

/-- The release of a sense frame ends its operation and its hold (R31, R118). -/
theorem HoldsInv.releaseSense {s : State} (h : HoldsInv s) {f : Surface} (ho : (s.unit f).op.isSome = true)
    (op : SenseOp) : HoldsInv (s.releaseSense f op) := by
  have hops : s.operations = (s.releaseSense f op).operations + 1 := by
    rw [State.operations_eq s f, ho, State.operations_eq _ f]
    cases f <;> rfl
  show s.store.holds - 1 = _
  rw [h, hops, Nat.add_sub_cancel]

/-- The release of a pen frame ends its operation and its hold (R65, R118). -/
theorem HoldsInv.releasePen {s : State} (h : HoldsInv s) (ho : s.pen.op.isSome = true) : HoldsInv s.releasePen := by
  have hops : s.operations = s.releasePen.operations + 1 := by
    unfold State.operations
    rw [ho]
    rfl
  show s.store.holds - 1 = _
  rw [h, hops, Nat.add_sub_cancel]

theorem HoldsInv.takeSense {s : State} (h : HoldsInv s) {f : Surface} (ho : (s.unit f).op = none) :
    HoldsInv (s.takeSense f) := by
  unfold State.takeSense
  split
  · exact (Moves.evaluateEnables _ _).holdsInv (h.takenSense ho _)
  · exact h

theorem HoldsInv.takePen {s : State} (h : HoldsInv s) (ho : s.pen.op = none) : HoldsInv s.takePen := by
  unfold State.takePen
  split
  · exact (Moves.evaluateEnables _ _).holdsInv (h.takenPen ho _)
  · exact h

theorem HoldsInv.completeSense {s : State} (h : HoldsInv s) (f : Surface) : HoldsInv (s.completeSense f) := by
  unfold State.completeSense
  split
  · rename_i op hop
    split
    · have hstages := stages_moves s f op ((s.stagesToSeven f op).1.completionGroup f op (s.stagesToSeven f op).2)
      have hsome : (s.unit f).op.isSome = true := by rw [hop]; rfl
      exact (reportSense_moves _ op).holdsInv
        ((hstages.holdsInv h).releaseSense ((hstages.unitOp f).trans hsome) op)
    · exact h
  · exact h

theorem HoldsInv.completePen {s : State} (h : HoldsInv s) : HoldsInv s.completePen := by
  unfold State.completePen
  split
  · rename_i op hop
    have hsome : s.pen.op.isSome = true := by rw [hop]; rfl
    have hframe := ((penEvaluate_keeps s op (PenInv.evaluate s op)).trans
      (Moves.offer _ (s.penGroup (s.penEvaluate op) op ++ (overrunEvents .pen op.tally).map .event))).trans
      (reportPen_moves _ op)
    exact (hframe.holdsInv h).releasePen (hframe.penOp.trans hsome)
  · exact h

theorem HoldsInv.allocate {s : State} (h : HoldsInv s) (who : Requesters) : HoldsInv (s.allocate who) := by
  obtain ⟨-, -, hpen, hholds, hpad, hpanel⟩ := allocate_keeps s who
  unfold HoldsInv State.operations
  rw [hholds, hpad, hpanel, hpen]
  exact h

/-- After SOFT_RESET no frame is in progress and no hold outstanding (R39, R73, R136). -/
theorem HoldsInv.softResetEffect (s : State) : HoldsInv s.softResetEffect :=
  (Moves.readPosture _).holdsInv rfl

theorem HoldsInv.releaseReset {s : State} (h : HoldsInv s) : HoldsInv s.releaseReset := by
  unfold State.releaseReset
  split
  · exact (Moves.readPosture s).holdsInv h
  · exact h

theorem HoldsInv.perform {s : State} (h : HoldsInv s) {d : Due} (hd : s.isDue d = true) : HoldsInv (s.perform d) := by
  cases d with
  | softReset => exact HoldsInv.softResetEffect s
  | senseTake f =>
    have hdue : s.senseTakeDue f = true := hd
    simp only [State.senseTakeDue, Bool.and_eq_true, Option.isNone_iff_eq_none] at hdue
    obtain ⟨⟨⟨hop, -⟩, -⟩, -⟩ := hdue
    exact h.takeSense hop
  | penTake =>
    have hdue : s.penTakeDue = true := hd
    simp only [State.penTakeDue, Bool.and_eq_true, Option.isNone_iff_eq_none] at hdue
    obtain ⟨⟨⟨hop, -⟩, -⟩, -⟩ := hdue
    exact h.takePen hop
  | _ => exact (perform_moves s _ (by simp) (by simp) (by simp)).holdsInv h

theorem HoldsInv.effectOf {s : State} (h : HoldsInv s) (c : Instr) : HoldsInv (effectOf c s) := by
  by_cases hb : ∃ who, c = .slotRequest who
  · obtain ⟨who, rfl⟩ := hb
    exact h.allocate who
  · by_cases hs : ∃ f, c = .senseFrameCompletion f
    · obtain ⟨f, rfl⟩ := hs
      exact h.completeSense f
    · by_cases hp : c = .penFrameCompletion
      · subst hp
        exact h.completePen
      · exact (effectOf_moves c (fun w hc => hb ⟨w, hc⟩) (fun f hc => hs ⟨f, hc⟩) hp s).holdsInv h

theorem HoldsInv.step {s t : State} (h : HoldsInv s) (hs : step s = .next t) : HoldsInv t :=
  step_keeps (P := HoldsInv) (fun _ _ h hd => h.perform hd) (fun _ h => h) (fun c _ h => h.effectOf c) (fun _ _ => rfl)
    (fun _ h => h.releaseReset) (fun _ _ => rfl) (fun _ _ h => h) (fun s h => (Moves.enterWaiting s).holdsInv h) h hs

/-- With no hold outstanding no frame is in progress. -/
theorem HoldsInv.idle {s : State} (h : HoldsInv s) (h0 : s.store.holds = 0) :
    s.pad.op = none ∧ s.panel.op = none ∧ s.pen.op = none := by
  have hsum : s.pad.op.isSome.toNat + s.panel.op.isSome.toNat + s.pen.op.isSome.toNat = 0 := h.symm.trans h0
  simpa [and_assoc] using hsum

/-- Settles O40: takes and completions move the count with the operations, and the swap is due at a count of 0. -/
theorem frameHoldsKept : Obligations.FrameHoldsKept := by
  refine ⟨fun s t h hs => h.step hs, fun s h hd => h.idle ?_⟩
  have hdue : (s.store.commit.isSome && s.store.holds == 0) = true := hd
  exact eq_of_beq (Bool.and_eq_true_iff.1 hdue).2

/-! ## The Row Fault List (R133) -/

theorem TableStore.afterSoftReset_faults (st : TableStore) : st.afterSoftReset.faults = st.faults := rfl

theorem TableStore.afterResetN_faults (st : TableStore) : st.afterResetN.faults = [] := rfl

theorem FaultsInv.empty {st : TableStore} (h : st.faults = []) : FaultsInv st := by
  unfold FaultsInv
  rw [h]
  exact ⟨Nat.zero_le 8, List.nodup_nil⟩

/-- SOFT_RESET keeps the list, and the read of row 0 may add to it (R136, R43). -/
theorem FaultsInv.softResetEffect {s : State} (h : FaultsInv s.store) : FaultsInv s.softResetEffect.store :=
  (h.of (TableStore.afterSoftReset_faults s.store)).afterRead _ _ _

theorem FaultsInv.releaseReset {s : State} (h : FaultsInv s.store) : FaultsInv s.releaseReset.store := by
  unfold State.releaseReset
  split
  · exact h.afterRead _ _ _
  · exact h

theorem FaultsInv.perform {s : State} (h : FaultsInv s.store) (d : Due) : FaultsInv (s.perform d).store := by
  by_cases hr : d = .softReset
  · subst hr
    exact h.softResetEffect
  · exact (perform_keeps s d hr).faults h

theorem FaultsInv.effectOf {s : State} (h : FaultsInv s.store) (c : Instr) : FaultsInv (effectOf c s).store := by
  by_cases hb : ∃ who, c = .slotRequest who
  · obtain ⟨who, rfl⟩ := hb
    exact (allocate_keeps s who).2.1 h
  · exact (effectOf_keeps c (fun who hc => hb ⟨who, hc⟩) s).faults h

/-- Settles O59: reads add an entry that is not listed while there is room, writes remove entries, and the resets keep
or empty the list. -/
theorem rowFaultListKept : Obligations.RowFaultListKept := by
  intro s t h hs
  refine step_keeps (P := fun s => FaultsInv s.store) (fun s d h _ => h.perform d) (fun s h => ?_)
    (fun c s h => h.effectOf c) (fun s _ => ?_) (fun s h => h.releaseReset) (fun s _ => ?_) (fun s q h => ?_)
    (fun s h => (Moves.enterWaiting s).faults h) h hs
  · rwa [State.finish_store]
  · exact FaultsInv.empty (TableStore.afterResetN_faults s.store)
  · exact FaultsInv.empty rfl
  · rwa [State.withPending_store]

end Sys2Proof.Machine
end

section
/-! PROOFS. Stored rows: what a read finds and does, and what a write leaves (R116, R129, R131 to R133). -/

namespace Sys2Proof.Machine

/-! ## What a read finds (R129, R131, R132) -/

theorem StoredRow.view_of_intact {r : StoredRow} (h : r.integrity = .intact) (t : Table) :
    r.view t = { bytes := r.bytes, inert := r.inert, condition := if r.inert = true then .inert else .good } := by
  rw [StoredRow.view, h]
  cases r.inert <;> rfl

theorem StoredRow.view_of_singleBit {r : StoredRow} (h : r.integrity = .singleBit) (t : Table) :
    r.view t = { bytes := r.bytes, inert := r.inert, condition := .corrected } := by
  rw [StoredRow.view, h]

theorem StoredRow.view_of_uncorrectable {r : StoredRow} (h : r.integrity = .uncorrectable) (t : Table) :
    r.view t = { bytes := defaultRow t, inert := true, condition := .faulted } := by
  rw [StoredRow.view, h]

/-! ## What a read does (R131, R133) -/

theorem TableStore.listed_iff (st : TableStore) (t : Table) (k : Bank) (n : Nat) :
    st.listed t k n = true ↔ { table := t, bank := k, row := n } ∈ st.faults := by
  simp [TableStore.listed]

/-- A row is a new fault if it is faulted, not listed, and finds room on the list (R133). -/
theorem TableStore.newFault_iff (st : TableStore) (t : Table) (k : Bank) (n : Nat) :
    st.newFault t k n = true ↔ (st.row t k n).integrity = .uncorrectable ∧
      { table := t, bank := k, row := n } ∉ st.faults ∧ st.faults.length < 8 := by
  rw [← TableStore.listed_iff]
  simp [TableStore.newFault, and_assoc]

/-- A read that adds no fault to the list has its effect on the store alone (R133). -/
theorem State.afterRead_of_no_new_fault {s : State} {t : Table} {k : Bank} {n : Nat}
    (h : s.store.newFault t k n ≠ true) : s.afterRead t k n = { s with store := s.store.afterRead t k n } := by
  rw [State.afterRead, if_neg h]

section
variable {s : State} {t : Table} {k : Bank} {n : Nat}

theorem State.afterRead_of_intact (h : (s.store.row t k n).integrity = .intact) : s.afterRead t k n = s := by
  rw [State.afterRead_of_no_new_fault (by simp [TableStore.newFault_iff, h]), TableStore.afterRead, h]

/-- A single-bit error is rewritten intact and counted (R131). -/
theorem State.afterRead_of_singleBit (h : (s.store.row t k n).integrity = .singleBit) :
    s.afterRead t k n = { s with
      store := { s.store.writeRow t k n { s.store.row t k n with integrity := .intact } with
        corrected := min 65535 (s.store.corrected + 1) } } := by
  rw [State.afterRead_of_no_new_fault (by simp [TableStore.newFault_iff, h]), TableStore.afterRead, h]
  rfl

theorem State.afterRead_of_listed (h : (s.store.row t k n).integrity = .uncorrectable)
    (hl : { table := t, bank := k, row := n } ∈ s.store.faults) : s.afterRead t k n = s := by
  rw [State.afterRead_of_no_new_fault (by simp [TableStore.newFault_iff, hl]), TableStore.afterRead, h]
  dsimp only
  rw [if_pos ((s.store.listed_iff t k n).2 hl)]

/-- A faulted row that is not listed joins the list, and TABLE_FAULT is raised (R133). -/
theorem State.afterRead_of_room (h : (s.store.row t k n).integrity = .uncorrectable)
    (hl : { table := t, bank := k, row := n } ∉ s.store.faults) (hroom : s.store.faults.length < 8) :
    s.afterRead t k n = State.raise
      { s with store := { s.store with faults := s.store.faults ++ [{ table := t, bank := k, row := n }] } }
      (.tableFault t k n) := by
  rw [State.afterRead, if_pos ((s.store.newFault_iff t k n).2 ⟨h, hl, hroom⟩), TableStore.afterRead, h]
  dsimp only
  rw [if_neg (mt (s.store.listed_iff t k n).1 hl), if_pos hroom]
  rfl

/-- With 8 entries a faulted row that is not listed sets the overflow flag (R133). -/
theorem State.afterRead_of_full (h : (s.store.row t k n).integrity = .uncorrectable)
    (hl : { table := t, bank := k, row := n } ∉ s.store.faults) (hfull : 8 ≤ s.store.faults.length) :
    s.afterRead t k n = { s with store := { s.store with overflow := true } } := by
  rw [State.afterRead_of_no_new_fault (by simp [TableStore.newFault_iff, hfull]), TableStore.afterRead, h]
  dsimp only
  rw [if_neg (mt (s.store.listed_iff t k n).1 hl), if_neg (Nat.not_lt.2 hfull)]

end

/-! ## Writes (R116, R133) -/

theorem TableStore.writeRow_faults (st : TableStore) (t : Table) (k : Bank) (n : Nat) (v : StoredRow) :
    (st.writeRow t k n v).faults =
      st.faults.filter (fun e => decide (e ≠ { table := t, bank := k, row := n })) :=
  List.filter_congr fun e _ => by rw [Bool.eq_iff_iff, bne_iff_ne, decide_eq_true_iff]

/-- Settles O49. -/
theorem storedRows : Obligations.StoredRows := by
  refine ⟨fun t r => ⟨fun h => r.view_of_intact h t, fun h => r.view_of_singleBit h t,
    fun h => r.view_of_uncorrectable h t⟩, ?_, fun st t k n v => ⟨st.writeRow_faults t k n v,
    st.row_writeRow_same t k n v, st.row_writeRow_other t k n v⟩, fun st t k n r rs => ⟨rfl, rfl⟩⟩
  rintro s t k n r e rfl rfl
  exact ⟨State.afterRead_of_intact, State.afterRead_of_singleBit, State.afterRead_of_listed, State.afterRead_of_room,
    State.afterRead_of_full⟩

end Sys2Proof.Machine
end

section
/-! PROOFS. The command slot and the command kinds (R160, R164, R169, R172). -/

namespace Sys2Proof.Machine

/-! ## The rows that the command slot governs (R169) -/

theorem controlOf_ne_softReset {c : Instr} {cmd : Command} {p : Bytes} (h : controlOf c = some (cmd, p)) :
    cmd ≠ .softReset := by
  rintro rfl
  cases c <;> simp [controlOf] at h

/-- A command's row carries its kind and payload on channel CONTROL (R166). -/
theorem hostPacketOf_of_controlOf {c : Instr} {cmd : Command} {p : Bytes} (h : controlOf c = some (cmd, p)) :
    hostPacketOf c = some (controlChannel, cmd.code, p) := by
  cases c
  case passDown | unknown | softReset => cases h
  all_goals exact congrArg (Option.map fun x => (controlChannel, x.1.code, x.2)) h

/-- The slot is BUSY with a command in progress, or with a SOFT_RESET not yet in effect (R169, R172). -/
theorem State.slotBusy_iff (s : State) : s.slotBusy = true ↔ s.command.slot ≠ none ∨ s.command.softReset = true := by
  rw [State.slotBusy, Bool.or_eq_true, Option.isSome_iff_ne_none, or_comm]

theorem SlotFree.not_busy {s : State} (h : SlotFree s) : s.slotBusy = false := by
  obtain ⟨hslot, hreset⟩ := h
  rw [State.slotBusy, hslot, hreset]
  rfl

theorem State.takeUnknown_of_busy {s : State} (h : s.slotBusy = true) (k : BitVec 6) :
    s.takeUnknown k = { s with queue := s.queue.offerBusy k } := if_pos h

theorem State.takeUnknown_of_free {s : State} (h : SlotFree s) (k : BitVec 6) :
    s.takeUnknown k = (s.occupy k).respond k .unknown [] := if_neg (by rw [h.not_busy]; exact Bool.false_ne_true)

/-- The row is that of a management command which the slot governs, or of a kind that names no command; `k` is its
kind. -/
def Governed (c : Instr) (cmd : Command) (k : BitVec 6) : Prop :=
  (∃ p, controlOf c = some (cmd, p) ∧ k = cmd.code) ∨ ∃ p, c = .unknown k p ∧ isCommandKind k = false

/-- A governed row is a CONTROL packet's, and BUSY is all that it does in a BUSY slot (R169). -/
theorem Governed.packet {c : Instr} {cmd : Command} {k : BitVec 6} (h : Governed c cmd k) :
    ∃ p, hostPacketOf c = some (controlChannel, k, p) ∧ ∀ s : State, s.slotBusy = true →
      s.takePacket controlChannel k p = { s with queue := s.queue.offerBusy k } := by
  obtain ⟨p, hc, rfl⟩ | ⟨p, rfl, hk⟩ := h
  · refine ⟨p, hostPacketOf_of_controlOf hc, fun s hs => ?_⟩
    rw [takePacket_command s (controlOf_ne_softReset hc), takeControl_of_busy hs]
  · refine ⟨p, rfl, fun s hs => ?_⟩
    rw [takePacket_unknown s hk, State.takeUnknown_of_busy hs]

theorem ReportQueue.offerBusy_of_room {q : ReportQueue} (h : q.records.length < 48) (k : BitVec 6) :
    q.offerBusy k = q.enter (.response { kind := k, status := .busy, result := [] }) := if_pos h

theorem ReportQueue.offerBusy_of_full {q : ReportQueue} (h : 48 ≤ q.records.length) (k : BitVec 6) :
    q.offerBusy k = { q with lost := min 65535 (q.lost + 1) } := if_neg (Nat.not_lt.2 h)

theorem Governed.exec_of_busy {c : Instr} {cmd : Command} {k : BitVec 6} (h : Governed c cmd k) {s : State}
    (hr : HostReady s) (hb : s.slotBusy = true) :
    exec c s = .next (State.finish { s with queue := s.queue.offerBusy k }) := by
  obtain ⟨p, hc, hbusy⟩ := h.packet
  rw [exec_hostPacketRow_of_ready hc hr, hbusy s hb]

/-- During a read or an ignored transfer no packet can end, so a command's row has no effect (log entries 2 and 21). -/
theorem Governed.exec_of_transfer {c : Instr} {cmd : Command} {k : BitVec 6} (h : Governed c cmd k) {s : State}
    (hq : Quiet s) (ht : s.port.transfer = .ignoring ∨ ∃ r standing out, s.port.transfer = .read r standing out) :
    exec c s = .next s.finish := by
  obtain ⟨p, hc, -⟩ := h.packet
  rw [exec_hostPacketRow hc]
  obtain ht | ⟨r, standing, out, ht⟩ := ht <;> exact hostPacket_of_busy hq (by simp [ht]) (by simp [ht]) _ _ _

/-! ## Kinds and lengths (11.4, R169) -/

/-- The sixteen kinds of 11.4. -/
theorem Command.code_table : ∀ x ∈ [(Command.identify, 0x01#6), (.getStatus, 0x02#6), (.setMode, 0x03#6),
    (.setPosture, 0x04#6), (.setNotices, 0x05#6), (.loadBegin, 0x08#6), (.loadRows, 0x09#6), (.loadEnd, 0x0A#6),
    (.loadAbort, 0x0B#6), (.commit, 0x0C#6), (.revert, 0x0D#6), (.readRows, 0x0E#6), (.verify, 0x0F#6),
    (.lockZones, 0x10#6), (.clearCounters, 0x11#6), (.softReset, 0x3F#6)], x.1.code = x.2 := by
  decide

theorem Command.mem_all (c : Command) : c ∈ Command.all := by
  cases c <;> decide

theorem isCommandKind_iff (k : BitVec 6) : isCommandKind k = true ↔ ∃ c : Command, c.code = k := by
  simp [isCommandKind, Command.mem_all]

/-- A command with one length accepts exactly that length (11.4). -/
theorem Command.lengthOk_iff {c : Command} {n : Nat} (h : c.length = some n) (p : Bytes) :
    c.lengthOk p = true ↔ p.length = n := by
  rw [Command.lengthOk, h, beq_iff_eq]

/-- Settles O52. -/
theorem commandSlot : Obligations.CommandSlot := by
  refine ⟨fun c cmd k s hgov => ?_, isCommandKind_iff, fun c n => Command.code_table (c, n), fun c cmd p s hc hr hl => ?_,
    fun k p s hr hk => ?_, fun p => ?_⟩
  · have h : Governed c cmd k := hgov
    refine ⟨fun hr hbusy => ?_, h.exec_of_transfer⟩
    rw [h.exec_of_busy hr (s.slotBusy_iff.2 hbusy)]
    refine ⟨fun hroom => ?_, fun hfull => ?_⟩
    · rw [ReportQueue.offerBusy_of_room hroom]
    · rw [ReportQueue.offerBusy_of_full hfull]
  · rw [exec_hostPacketRow_of_ready (hostPacketOf_of_controlOf hc) hr.1, takePacket_command s (controlOf_ne_softReset hc),
      takeControl_of_badLength hr.2 cmd p _ hl]
    rfl
  · rw [exec_unknown hr.1 hk, State.takeUnknown_of_free hr.2]
    rfl
  · exact ⟨Command.lengthOk_iff rfl p, Command.lengthOk_iff rfl p, Command.lengthOk_iff rfl p, Command.lengthOk_iff rfl p,
      Command.lengthOk_iff rfl p, Command.lengthOk_iff rfl p, rfl, Command.lengthOk_iff rfl p, Command.lengthOk_iff rfl p,
      Command.lengthOk_iff rfl p, Command.lengthOk_iff rfl p, Command.lengthOk_iff rfl p, Command.lengthOk_iff rfl p,
      Command.lengthOk_iff rfl p, Command.lengthOk_iff rfl p⟩

end Sys2Proof.Machine
end

section
/-! PROOFS. The loads: LOAD_BEGIN, LOAD_ROWS, LOAD_END, LOAD_ABORT and the load step timeout (R119 to R122, R134). -/

namespace Sys2Proof.Machine

/-! ## Table codes and locked runs (11.3, R134) -/

theorem tableOfCode_tableCode (t : Table) : tableOfCode (tableCode t) = some t := by
  cases t <;> rfl

theorem tableOfCode_of_large {n : Nat} (h : 5 ≤ n) : tableOfCode n = none := by
  refine List.find?_eq_none.2 fun t _ hc => ?_
  have hlt : tableCode t < 5 := by cases t <;> decide
  exact Nat.not_le.2 hlt (eq_of_beq hc ▸ h)

theorem TableStore.runLocked_iff (st : TableStore) (t : Table) (first count : Nat) :
    st.runLocked t first count = true ↔
      t = .zone ∧ ∃ i < count, first + i < 96 ∧ (first + i) % 24 < st.lock := by
  simp only [TableStore.runLocked, TableStore.locked, List.any_eq_true, List.mem_range, Bool.and_eq_true, beq_iff_eq,
    decide_eq_true_eq]
  constructor
  · rintro ⟨i, hi, ⟨ht, h96⟩, hlock⟩
    exact ⟨ht, i, hi, h96, hlock⟩
  · rintro ⟨ht, i, hi, h96, hlock⟩
    exact ⟨i, hi, ⟨ht, h96⟩, hlock⟩

/-! ## LOAD_BEGIN (R119) -/

section
variable {s : State} {p : Bytes} {t : Table}

/-- A refusal of LOAD_BEGIN is its answer. -/
theorem exec_loadBegin_of_refused (hr : CommandReady s) (hl : p.length = 3) {v : Status}
    (h : s.store.loadBeginRefused (u8At p 0) (u8At p 1) (u8At p 2) = some (v, [])) :
    exec (.loadBegin p) s = .next (State.finish (s.answered .loadBegin v [])) := by
  rw [exec_loadBegin hr p (beq_iff_eq.2 hl), State.runLoadBegin, State.occupy_store, h]
  rfl

theorem TableStore.loadBeginRefused_of_no_table (st : TableStore) {code : Nat} (h : 5 ≤ code) (first count : Nat) :
    st.loadBeginRefused code first count = some (.badArg, []) := by
  rw [TableStore.loadBeginRefused, tableOfCode_of_large h]

/-- The tests of LOAD_BEGIN that follow the table code's. -/
theorem TableStore.loadBeginRefused_of_table (st : TableStore) (t : Table) (first count : Nat) :
    st.loadBeginRefused (tableCode t) first count =
      if st.load ≠ none then some (.badState, [])
      else if st.status t = .copying then some (.tableBusy, [])
      else if t = .zone ∧ ∃ i < max 1 count, first + i < 96 ∧ (first + i) % 24 < st.lock then some (.protectedZone, [])
      else if tableRows t ≤ first ∨ tableRows t < first + count then some (.badArg, [])
      else none := by
  rw [TableStore.loadBeginRefused, tableOfCode_tableCode]
  simp only [Option.isSome_iff_ne_none, TableStore.copying_iff, TableStore.runLocked_iff]

theorem State.runLoadBegin_of_accepted (ht : u8At p 0 = tableCode t)
    (h : s.store.loadBeginRefused (u8At p 0) (u8At p 1) (u8At p 2) = none) :
    s.runLoadBegin p =
      State.respond { s with store := s.store.openLoad t (u8At p 1) (u8At p 2) } Command.loadBegin.code .done
        (p.take 3) := by
  rw [State.runLoadBegin, h, ht, tableOfCode_tableCode]

end

/-! ## LOAD_ROWS (R120) -/

theorem length_cutRows (size n : Nat) (bs : Bytes) : (cutRows size n bs).length = n := by
  induction n generalizing bs with
  | zero => rfl
  | succ n ih => rw [cutRows, List.length_cons, ih]

/-- Whole rows cut from the bytes are the bytes again. -/
theorem flatten_cutRows {size n : Nat} {bs : Bytes} (h : bs.length = size * n) : (cutRows size n bs).flatten = bs := by
  induction n generalizing bs with
  | zero => exact (List.eq_nil_of_length_eq_zero h).symm
  | succ n ih =>
    have hrest : (bs.drop size).length = size * n := by rw [List.length_drop, h, Nat.mul_succ, Nat.add_sub_cancel]
    rw [cutRows, List.flatten_cons, ih hrest, List.take_append_drop]

theorem length_of_mem_cutRows {size n : Nat} {bs r : Bytes} (h : bs.length = size * n) (hr : r ∈ cutRows size n bs) :
    r.length = size := by
  induction n generalizing bs with
  | zero => cases hr
  | succ n ih =>
    have hfit : size ≤ bs.length := by rw [h, Nat.mul_succ]; exact Nat.le_add_left _ _
    have hrest : (bs.drop size).length = size * n := by rw [List.length_drop, h, Nat.mul_succ, Nat.add_sub_cancel]
    obtain rfl | hr := List.mem_cons.1 hr
    · rw [List.length_take, Nat.min_eq_left hfit]
    · exact ih hrest hr

/-- The rows that LOAD_ROWS may not add: none, a part of a row, or rows beyond the count or, with count OPEN, beyond the
table (R120). -/
def OpenLoad.rejects (ld : OpenLoad) (p : Bytes) : Prop :=
  p.length = 0 ∨ p.length % rowSize ld.table ≠ 0 ∨
    (∃ k, ld.count = some k ∧ k < ld.written + p.length / rowSize ld.table) ∨
    (ld.count = none ∧ tableRows ld.table < ld.cursor + p.length / rowSize ld.table)

section
variable {s : State} {p : Bytes} {ld : OpenLoad}

theorem TableStore.loadRowsRefused_of_rejects {st : TableStore} (h : ld.rejects p) :
    st.loadRowsRefused ld p = some (.badArg, []) := by
  unfold TableStore.loadRowsRefused
  obtain h | h | ⟨k, hk, h⟩ | ⟨hk, h⟩ := h
  · exact if_pos (.inl h)
  · exact if_pos (.inr h)
  · dsimp only
    rw [hk, if_pos (decide_eq_true h), ite_self]
  · dsimp only
    rw [hk, if_pos (decide_eq_true h), ite_self]

/-- Rows that fit are refused only for the lock (R120, R134). -/
theorem TableStore.loadRowsRefused_of_fit {st : TableStore} (h : ¬ ld.rejects p) :
    st.loadRowsRefused ld p =
      if ld.table = .zone ∧ ∃ i < p.length / rowSize ld.table, ld.cursor + i < 96 ∧ (ld.cursor + i) % 24 < st.lock then
        some (.protectedZone, putU8 ld.cursor ++ putU8 ld.written)
      else none := by
  obtain ⟨hne, hwhole, hcount, hopen⟩ : p.length ≠ 0 ∧ ¬ p.length % rowSize ld.table ≠ 0 ∧ _ ∧ _ := by
    simpa only [OpenLoad.rejects, not_or] using h
  unfold TableStore.loadRowsRefused
  dsimp only
  rw [if_neg (not_or.2 ⟨hne, hwhole⟩)]
  simp only [TableStore.runLocked_iff]
  refine if_neg fun hbeyond => ?_
  cases hk : ld.count with
  | some k =>
    rw [hk] at hbeyond
    exact hcount ⟨k, hk, of_decide_eq_true hbeyond⟩
  | none =>
    rw [hk] at hbeyond
    exact hopen ⟨hk, of_decide_eq_true hbeyond⟩

theorem OpenLoad.length_of_fit (h : ¬ ld.rejects p) :
    p.length = rowSize ld.table * (p.length / rowSize ld.table) :=
  (Nat.mul_div_cancel' (Nat.dvd_of_mod_eq_zero (Decidable.not_not.1 fun hpart => h (.inr (.inl hpart))))).symm

theorem State.runLoadRows_of_no_load (h : s.store.load = none) :
    s.runLoadRows p = s.respond Command.loadRows.code .badState [] := by
  rw [State.runLoadRows, h]

theorem State.runLoadRows_of_refused {v : Status} {r : Bytes} (h : s.store.load = some ld)
    (hr : s.store.loadRowsRefused ld p = some (v, r)) :
    s.runLoadRows p =
      State.respond { s with store := s.store.closeLoad ld.table .broken } Command.loadRows.code v r := by
  rw [State.runLoadRows, h]
  dsimp only
  rw [hr]

theorem State.runLoadRows_of_taken (h : s.store.load = some ld) (hr : s.store.loadRowsRefused ld p = none) :
    s.runLoadRows p =
      State.respond { s with store := s.store.takeRows ld p } Command.loadRows.code .done
        (putU8 (ld.cursor + p.length / rowSize ld.table) ++ putU8 (ld.written + p.length / rowSize ld.table)) := by
  rw [State.runLoadRows, h]
  dsimp only
  rw [hr]

end

/-! ## LOAD_END, LOAD_ABORT and the timeout (R121, R122) -/

section
variable {s : State} {p : Bytes} {ld : OpenLoad}

/-- LOAD_END before the count's rows have been written (R121). -/
theorem OpenLoad.outcome_of_short {k : Nat} (hk : ld.count = some k) (h : ld.written < k) (host : Word) :
    ld.outcome host = .short := by
  rw [OpenLoad.outcome, hk]
  exact if_pos (decide_eq_true h)

/-- With the count's rows written, or count OPEN, the CRCs decide (R121). -/
theorem OpenLoad.outcome_of_whole (h : ∀ k, ld.count = some k → k ≤ ld.written) (p : Bytes) :
    ld.outcome (BitVec.ofNat 32 (u32At p 0)) =
      if u32At p 0 = (crc32Final ld.crc).toNat then .done else .crcFail := by
  have hcrc : BitVec.ofNat 32 (u32At p 0) = crc32Final ld.crc ↔ u32At p 0 = (crc32Final ld.crc).toNat := by
    rw [← BitVec.toNat_inj, toNat_ofNat_u32At]
  have hwhole : (match ld.count with | some k => decide (ld.written < k) | none => false) ≠ true := by
    cases hk : ld.count with
    | some k => exact fun hc => Nat.not_lt.2 (h k hk) (of_decide_eq_true hc)
    | none => exact Bool.false_ne_true
  rw [OpenLoad.outcome]
  refine (if_neg hwhole).trans ?_
  simp only [ne_eq, hcrc, ite_not]

theorem State.runLoadEnd_of_no_load (h : s.store.load = none) :
    s.runLoadEnd p = s.respond Command.loadEnd.code .badState [] := by
  rw [State.runLoadEnd, h]

theorem State.runLoadEnd_of_load {v : Status} (h : s.store.load = some ld)
    (hv : ld.outcome (BitVec.ofNat 32 (u32At p 0)) = v) :
    s.runLoadEnd p =
      State.respond { s with store := s.store.closeLoad ld.table (if v = .done then .edited else .broken) }
        Command.loadEnd.code v (putU8 ld.written ++ putU32 (crc32Final ld.crc).toNat) := by
  rw [State.runLoadEnd, h, ← hv]

theorem State.runLoadAbort_of_no_load (h : s.store.load = none) :
    s.runLoadAbort = s.respond Command.loadAbort.code .badState [] := by
  rw [State.runLoadAbort, h]

theorem State.runLoadAbort_of_load (h : s.store.load = some ld) :
    s.runLoadAbort =
      State.respond { s with store := s.store.closeLoad ld.table .broken } Command.loadAbort.code .aborted
        (putU8 ld.written) := by
  rw [State.runLoadAbort, h]

theorem State.loadTimeout_of_no_load (h : s.store.load = none) : s.loadTimeout = s := by
  rw [State.loadTimeout, h]

theorem State.loadTimeout_of_load (h : s.store.load = some ld) :
    s.loadTimeout = State.raise { s with store := s.store.closeLoad ld.table .broken }
      (.loadTimeout ld.table ld.cursor ld.written) := by
  rw [State.loadTimeout, h]

end

/-- The verdict that the three clauses of LOAD_END's statement give is the outcome (R121). -/
theorem OpenLoad.outcome_eq {ld : OpenLoad} {p : Bytes} {v : Status}
    (hshort : (∃ k, ld.count = some k ∧ ld.written < k) → v = .short)
    (hfail : (∀ k, ld.count = some k → k ≤ ld.written) → u32At p 0 ≠ (crc32Final ld.crc).toNat → v = .crcFail)
    (hdone : (∀ k, ld.count = some k → k ≤ ld.written) → u32At p 0 = (crc32Final ld.crc).toNat → v = .done) :
    ld.outcome (BitVec.ofNat 32 (u32At p 0)) = v := by
  by_cases hs : ∃ k, ld.count = some k ∧ ld.written < k
  · rw [hshort hs]
    obtain ⟨k, hk, hlt⟩ := hs
    exact OpenLoad.outcome_of_short hk hlt _
  · have hwhole : ∀ k, ld.count = some k → k ≤ ld.written := fun k hk => Nat.not_lt.1 fun hlt => hs ⟨k, hk, hlt⟩
    rw [OpenLoad.outcome_of_whole hwhole]
    split
    · rename_i hcrc
      exact (hdone hwhole hcrc).symm
    · rename_i hcrc
      exact (hfail hwhole hcrc).symm

/-- Settles O48. -/
theorem loads : Obligations.Loads := by
  refine ⟨fun p s hr hl => ⟨fun h => ?_, fun t locked ht hlocked => ?_⟩, fun p s hr => ⟨fun h => ?_, ?_⟩,
    fun p s hr hl => ⟨fun h => ?_, fun ld v h hshort hfail hdone => ?_⟩, fun s hr => ⟨fun h => ?_, fun ld h => ?_⟩,
    fun s hq => ⟨fun h => ?_, fun ld h => ?_⟩⟩
  -- LOAD_BEGIN
  · exact exec_loadBegin_of_refused hr hl (s.store.loadBeginRefused_of_no_table h _ _)
  · have htests := s.store.loadBeginRefused_of_table t (u8At p 1) (u8At p 2)
    rw [← ht] at htests
    refine ⟨fun hload => ?_, fun hload hcopy => ?_, fun hload hcopy hlock => ?_, fun hload hcopy hlock hrange => ?_,
      fun hload hcopy hlock hfirst hlast => ?_⟩
    · rw [if_pos hload] at htests
      exact exec_loadBegin_of_refused hr hl htests
    · rw [if_neg (not_not_intro hload), if_pos hcopy] at htests
      exact exec_loadBegin_of_refused hr hl htests
    · rw [if_neg (not_not_intro hload), if_neg hcopy, if_pos (hlocked.1 hlock)] at htests
      exact exec_loadBegin_of_refused hr hl htests
    · rw [if_neg (not_not_intro hload), if_neg hcopy, if_neg (mt hlocked.2 hlock), if_pos hrange] at htests
      exact exec_loadBegin_of_refused hr hl htests
    · rw [if_neg (not_not_intro hload), if_neg hcopy, if_neg (mt hlocked.2 hlock),
        if_neg (not_or.2 ⟨Nat.not_le.2 hfirst, Nat.not_lt.2 hlast⟩)] at htests
      rw [exec_loadBegin hr p (beq_iff_eq.2 hl), State.runLoadBegin_of_accepted (s := s.occupy _) ht htests]
      rfl
  -- LOAD_ROWS
  · rw [exec_loadRows hr p rfl, State.runLoadRows_of_no_load (s := s.occupy _) h]
    rfl
  · rintro ld n broken bad locked h rfl rfl hbad hlocked
    rw [exec_loadRows hr p rfl]
    refine ⟨fun hb => ?_, fun hb hlock => ?_, fun hb hlock => ?_⟩
    · rw [State.runLoadRows_of_refused (s := s.occupy _) h (TableStore.loadRowsRefused_of_rejects (hbad.1 hb))]
      rfl
    · rw [State.runLoadRows_of_refused (s := s.occupy _) h
        ((TableStore.loadRowsRefused_of_fit (mt hbad.2 hb)).trans (if_pos (hlocked.1 hlock)))]
      rfl
    · have hsize : p.length = rowSize ld.table * (p.length / rowSize ld.table) :=
        OpenLoad.length_of_fit (mt hbad.2 hb)
      refine ⟨cutRows (rowSize ld.table) (p.length / rowSize ld.table) p, flatten_cutRows hsize, length_cutRows _ _ _,
        fun r => length_of_mem_cutRows hsize, ?_⟩
      rw [State.runLoadRows_of_taken (s := s.occupy _) h
        ((TableStore.loadRowsRefused_of_fit (mt hbad.2 hb)).trans (if_neg (mt hlocked.2 hlock)))]
      rfl
  -- LOAD_END
  · rw [exec_loadEnd hr p (beq_iff_eq.2 hl), State.runLoadEnd_of_no_load (s := s.occupy _) h]
    rfl
  · rw [exec_loadEnd hr p (beq_iff_eq.2 hl),
      State.runLoadEnd_of_load (s := s.occupy _) h (OpenLoad.outcome_eq hshort hfail hdone)]
    rfl
  -- LOAD_ABORT
  · rw [exec_loadAbort hr [] rfl, State.runLoadAbort_of_no_load (s := s.occupy _) h]
    rfl
  · rw [exec_loadAbort hr [] rfl, State.runLoadAbort_of_load (s := s.occupy _) h]
    rfl
  -- the timeout
  · rw [exec_loadStepTimeout hq, State.loadTimeout_of_no_load h]
  · rw [exec_loadStepTimeout hq, State.loadTimeout_of_load h]
    rfl

end Sys2Proof.Machine
end

section
/-! PROOFS. READ_ROWS, VERIFY and the end of a verify pass (R129, R130). -/

namespace Sys2Proof.Machine

/-! ## READ_ROWS (R129) -/

/-- 192 row bytes are 16 rows of 12 bytes or 12 rows of 16. -/
theorem readLimit_eq (t : Table) : readLimit t = if t = .cls ∨ t = .gesture then 12 else 16 := by
  cases t <;> rfl

theorem TableStore.namedBank_of_large (st : TableStore) (t : Table) {n : Nat} (h : 2 ≤ n) : st.namedBank t n = none := by
  obtain ⟨m, rfl⟩ := Nat.exists_eq_add_of_le' h
  rfl

theorem TableStore.namedBank_of_code {st : TableStore} {t : Table} {k : Bank} {n : Nat}
    (h : n = 0 ∧ k = st.active t ∨ n = 1 ∧ k = st.staging t) : st.namedBank t n = some k := by
  obtain ⟨rfl, rfl⟩ | ⟨rfl, rfl⟩ := h <;> rfl

section
variable {s : State} {p : Bytes} {t : Table} {k : Bank}

theorem State.runReadRows_of_bad_codes (h : 5 ≤ u8At p 0 ∨ 2 ≤ u8At p 1) :
    s.runReadRows p = s.respond Command.readRows.code .badArg [] := by
  rw [State.runReadRows]
  dsimp only
  cases ht : tableOfCode (u8At p 0) with
  | none => rfl
  | some t =>
    obtain h | h := h
    · rw [tableOfCode_of_large h] at ht
      cases ht
    · dsimp only
      rw [TableStore.namedBank_of_large _ _ h]

/-- READ_ROWS of a table's code and a bank's: the tests that follow, and the read. -/
theorem State.runReadRows_of_codes (ht : u8At p 0 = tableCode t) (hk : s.store.namedBank t (u8At p 1) = some k) :
    s.runReadRows p =
      if u8At p 3 = 0 ∨ readLimit t < u8At p 3 ∨ tableRows t < u8At p 2 + u8At p 3 then
        s.respond Command.readRows.code .badArg []
      else if u8At p 1 = 1 ∧ s.store.copying t = true then s.respond Command.readRows.code .tableBusy []
      else
        (s.afterReads t k ((List.range (u8At p 3)).map (fun i => u8At p 2 + i))).respond Command.readRows.code .done
          (readResult t k (u8At p 2) (u8At p 3)
            (s.viewRows t k ((List.range (u8At p 3)).map (fun i => u8At p 2 + i)))) := by
  rw [State.runReadRows, ht, tableOfCode_tableCode]
  dsimp only
  rw [hk]

end

/-- The rows of a range are distinct. -/
theorem nodup_rowRange (first count : Nat) : ((List.range count).map (fun i => first + i)).Nodup :=
  List.nodup_range.map fun _ _ h => Nat.add_left_cancel h

/-- A read of distinct rows reports each row as it stood before the read. -/
theorem readResult_viewRows {t : Table} {k : Bank} {ns : List Nat} (h : ns.Nodup) (first count : Nat) (s : State) :
    readResult t k first count (State.viewRows t k ns s) =
      putU8 (tableCode t) ++ putU8 k.code ++ putU8 first ++ putU8 count ++
        (ns.map (fun n => putU8 ((s.store.row t k n).view t).condition.code)).flatten ++
        (ns.map (fun n => ((s.store.row t k n).view t).bytes)).flatten := by
  rw [State.viewRows_of_nodup t k ns s h, readResult, List.map_map, List.map_map]
  rfl

/-- The condition code that READ_ROWS reports for a stored row (11.4; log entry 16). -/
def StoredRow.conditionCode (r : StoredRow) : Nat :=
  match r.integrity, r.inert with
  | .intact, false => 0
  | .singleBit, _ => 1
  | .uncorrectable, _ => 2
  | .intact, true => 3

theorem StoredRow.view_conditionCode (t : Table) (r : StoredRow) : (r.view t).condition.code = r.conditionCode := by
  unfold StoredRow.conditionCode
  cases h : r.integrity with
  | intact => rw [r.view_of_intact h]; cases r.inert <;> rfl
  | singleBit => rw [r.view_of_singleBit h]; cases r.inert <;> rfl
  | uncorrectable => rw [r.view_of_uncorrectable h]; cases r.inert <;> rfl

theorem StoredRow.view_bytes_eq (t : Table) (r : StoredRow) :
    (r.view t).bytes = if r.integrity = .uncorrectable then defaultRow t else r.bytes := by
  cases h : r.integrity with
  | intact => rw [r.view_of_intact h]; rfl
  | singleBit => rw [r.view_of_singleBit h]; rfl
  | uncorrectable => rw [r.view_of_uncorrectable h]; rfl

/-! ## VERIFY (R130) -/

section
variable {s : State} {p : Bytes}

theorem State.runVerify_of_bad (h : u8At p 0 = 0 ∨ 32 ≤ u8At p 0) :
    s.runVerify p = s.respond Command.verify.code .badArg [] := if_pos ((badSet_iff _).2 h)

/-- VERIFY of a set that names tables (R130). -/
theorem State.runVerify_of_good (h0 : u8At p 0 ≠ 0) (h32 : u8At p 0 < 32) :
    s.runVerify p =
      if (tableSetOf (u8At p 0)).any s.store.copying then s.respond Command.verify.code .tableBusy []
      else { s with store := { s.store with verify := some (.command (tableSetOf (u8At p 0))) } } :=
  if_neg (by rw [badSet_of_good h0 h32]; exact Bool.false_ne_true)

theorem TableStore.any_copying_iff (st : TableStore) (ts : TableSet) :
    ts.any st.copying = true ↔ ∃ t ∈ ts, st.status t = .copying := by
  simp only [List.any_eq_true, TableStore.copying_iff]

theorem State.runVerify_of_copying (h0 : u8At p 0 ≠ 0) (h32 : u8At p 0 < 32)
    (h : ∃ t ∈ tableSetOf (u8At p 0), s.store.status t = .copying) :
    s.runVerify p = s.respond Command.verify.code .tableBusy [] := by
  rw [State.runVerify_of_good h0 h32, if_pos ((s.store.any_copying_iff _).2 h)]

theorem State.runVerify_of_free (h0 : u8At p 0 ≠ 0) (h32 : u8At p 0 < 32)
    (h : ∀ t ∈ tableSetOf (u8At p 0), s.store.status t ≠ .copying) :
    s.runVerify p = { s with store := { s.store with verify := some (.command (tableSetOf (u8At p 0))) } } := by
  have hnone : ¬ (tableSetOf (u8At p 0)).any s.store.copying = true := fun hany => by
    obtain ⟨t, ht, hcopy⟩ := (s.store.any_copying_iff _).1 hany
    exact h t ht hcopy
  rw [State.runVerify_of_good h0 h32, if_neg hnone]

end

/-! ## The end of a pass (R130) -/

/-- A pass reads its banks one after another. -/
theorem State.afterPass_eq_foldl (banks : List (Table × Bank)) (s : State) :
    State.afterPass banks s =
      banks.foldl (fun w b => State.afterReads b.1 b.2 (List.range (tableRows b.1)) w) s := by
  induction banks generalizing s with
  | nil => rfl
  | cons b banks ih => exact ih _

theorem TableStore.countPass_eq (st : TableStore) (v : Integrity) (banks : List (Table × Bank)) :
    st.countPass v banks = (banks.map (fun b =>
      ((List.range (tableRows b.1)).filter (fun n => decide ((st.row b.1 b.2 n).integrity = v))).length)).sum :=
  List.sum_eq_foldl.symm

theorem State.endVerify_of_none {s : State} (h : s.store.verify = none) : s.endVerify = s := by
  rw [State.endVerify, h]

/-- VERIFY is answered with the faulted and the corrected rows of its pass. -/
theorem State.endVerify_of_command {s : State} {ts : TableSet} (h : s.store.verify = some (.command ts))
    {banks : List (Table × Bank)} (hb : banks = s.store.passBanks (.command ts)) :
    s.endVerify =
      State.respond { State.afterPass banks s with store := { (State.afterPass banks s).store with verify := none } }
        Command.verify.code .done
        (putU16 (s.store.countPass .uncorrectable banks) ++ putU16 (s.store.countPass .singleBit banks)) := by
  rw [State.endVerify, h, hb]

/-- The wake pass hands its count to the Mode Engine. -/
theorem State.endVerify_of_wake {s : State} (h : s.store.verify = some .wake)
    {banks : List (Table × Bank)} (hb : banks = s.store.passBanks .wake) :
    s.endVerify = { State.afterPass banks s with
      store := { (State.afterPass banks s).store with verify := none },
      mode := { (State.afterPass banks s).mode with wakeCount := some (s.store.countPass .uncorrectable banks) } } := by
  rw [State.endVerify, h, hb]

/-- Settles O51. -/
theorem readRowsAndVerify : Obligations.ReadRowsAndVerify := by
  refine ⟨fun p s hr hl => ⟨fun h => ?_, fun t k limit ht hk hlimit => ?_⟩, fun p s ts hr hl hts => ⟨fun h => ?_,
    fun h0 h32 => ⟨fun hbusy => ?_, fun hfree => ?_⟩⟩, fun s u banks count hq hcount hu => ?_⟩
  -- READ_ROWS
  · rw [exec_readRows hr p (beq_iff_eq.2 hl), State.runReadRows_of_bad_codes h]
    rfl
  · rw [exec_readRows hr p (beq_iff_eq.2 hl),
      State.runReadRows_of_codes (s := s.occupy _) ht (TableStore.namedBank_of_code hk), readLimit_eq, ← hlimit]
    refine ⟨fun hrange => ?_, fun h1 hlim hlast => ?_⟩
    · rw [if_pos hrange]
      rfl
    · rw [if_neg (by omega)]
      refine ⟨fun hstaging hcopy => ?_, fun hfree ns row hns hrow => ?_⟩
      · rw [if_pos ⟨hstaging, (s.store.copying_iff t).2 hcopy⟩]
        rfl
      · have hread : ¬ (u8At p 1 = 1 ∧ (s.occupy Command.readRows.code).store.copying t = true) := by
          rintro ⟨hstaging, hcopy⟩
          obtain h0 | hne := hfree
          · omega
          · exact hne ((s.store.copying_iff t).1 hcopy)
        obtain rfl : row = s.store.row t k := funext hrow
        rw [if_neg hread, ← hns, readResult_viewRows (hns ▸ nodup_rowRange _ _)]
        simp only [StoredRow.view_bytes_eq, StoredRow.view_conditionCode]
        rfl
  -- VERIFY
  · rw [exec_verify hr p (beq_iff_eq.2 hl), State.runVerify_of_bad h]
    rfl
  · obtain rfl : ts = tableSetOf (u8At p 0) := hts
    rw [exec_verify hr p (beq_iff_eq.2 hl), State.runVerify_of_copying (s := s.occupy _) h0 h32 hbusy]
    rfl
  · obtain rfl : ts = tableSetOf (u8At p 0) := hts
    rw [exec_verify hr p (beq_iff_eq.2 hl), State.runVerify_of_free (s := s.occupy _) h0 h32 hfree]
    rfl
  -- the end of a pass
  · obtain rfl : count = fun v => s.store.countPass v banks :=
      funext fun v => (hcount v).trans (s.store.countPass_eq v banks).symm
    rw [← State.afterPass_eq_foldl] at hu
    subst hu
    rw [exec_verifyPassEnd hq]
    refine ⟨fun h => ?_, fun ts h hb => ?_, fun h hb => ?_⟩
    · rw [State.endVerify_of_none h]
    · rw [State.endVerify_of_command h (hb.trans (List.flatMap_def ..))]
    · rw [State.endVerify_of_wake h hb]

end Sys2Proof.Machine
end

section
/-! PROOFS. The three resets (R43, R136, R148 to R150, R163, R168, R172). -/

namespace Sys2Proof.Machine

/-! ## SOFT_RESET (R136, R149, R172) -/

/-- SOFT_RESET is due once no table is COPYING and neither transmitter is sending (R149). -/
theorem State.softReset_isDue {s : State} (hs : s.command.softReset = true) (hc : ∀ t, s.store.status t ≠ .copying)
    (hpad : s.padLink.sending = none) (hpanel : s.panelLink.sending = none) : s.isDue .softReset = true := by
  have hcopy : allTables.any s.store.copying = false :=
    List.any_eq_false.2 fun t _ h => hc t ((s.store.copying_iff t).1 h)
  show s.softResetDue = true
  rw [State.softResetDue, hs, hcopy, hpad, hpanel]
  rfl

/-- A store is given by its five tables and its other fields. -/
theorem TableStore.ext_tables {st st' : TableStore} (ht : ∀ t, st.table t = st'.table t) (hholds : st.holds = st'.holds)
    (hload : st.load = st'.load) (hcommit : st.commit = st'.commit) (hfaults : st.faults = st'.faults)
    (hoverflow : st.overflow = st'.overflow) (hlock : st.lock = st'.lock) (hcorrected : st.corrected = st'.corrected)
    (hverify : st.verify = st'.verify) : st = st' := by
  have hposture : st.posture = st'.posture := ht .posture
  have hzone : st.zone = st'.zone := ht .zone
  have hcls : st.cls = st'.cls := ht .cls
  have hgesture : st.gesture = st'.gesture := ht .gesture
  have hpen : st.pen = st'.pen := ht .pen
  obtain ⟨⟩ := st
  obtain ⟨⟩ := st'
  rw [TableStore.mk.injEq]
  exact ⟨hposture, hzone, hcls, hgesture, hpen, hholds, hload, hcommit, hfaults, hoverflow, hlock, hcorrected,
    hverify⟩

theorem TableStore.table_afterSoftReset (st : TableStore) (t : Table) :
    st.afterSoftReset.table t =
      { st.table t with status := if st.status t = .loading then .broken else st.status t } := by
  cases t <;> rfl

/-- The response finds the emptied queue, and is its only record (R163). -/
theorem State.respond_of_empty {s : State} (h : s.queue = ReportQueue.reset) (k : BitVec 6) (v : Status) (r : Bytes) :
    s.respond k v r = { s with
      queue := { ReportQueue.reset with records := [.response { kind := k, status := v, result := r }], attn := true },
      command := { s.command with slot := none } } := by
  rw [State.respond, h]
  rfl

/-! ## RESET_N (R136, R148) -/

/-- A bank of 96 ZONE rows keeps its locked rows (R134, R136). -/
theorem TableStore.keepLocked_eq (st : TableStore) (k : Bank) :
    st.keepLocked k = (List.range 96).map (fun n => if n % 24 < st.lock then st.row .zone k n
      else { bytes := List.replicate 12 0x00#8, inert := false, integrity := .intact }) := by
  refine List.map_congr_left fun n hn => ?_
  have h96 : n < 96 := List.mem_range.1 hn
  have hlocked : st.locked .zone n = true ↔ n % 24 < st.lock := by simp [TableStore.locked, h96]
  simp only [hlocked]
  rfl

/-- Settles O57. -/
theorem resets : Obligations.Resets := by
  refine ⟨fun p s hr => exec_softReset hr p, ?_, ?_, fun s => ⟨fun h => ?_, fun h => ?_, rfl⟩⟩
  · rintro s u st hr hs hc hpad hpanel htables ⟨hholds, hload, hcommit, hcorrected, hverify, hlock, hfaults, hoverflow⟩ rfl
    obtain rfl : st = s.store.afterSoftReset :=
      TableStore.ext_tables (fun t => (htables t).trans (s.store.table_afterSoftReset t).symm) hholds hload hcommit
        hfaults hoverflow hlock hcorrected hverify
    rw [exec_softResetEffect hr (State.softReset_isDue hs hc hpad hpanel), State.perform, State.softResetEffect,
      State.respond_of_empty rfl]
    cases s.port.transfer <;> rfl
  · rintro s kept hkept
    obtain rfl : kept = s.store.keepLocked := funext fun k => (hkept k).trans (s.store.keepLocked_eq k).symm
    rfl
  · show Host.Outcome.next s.releaseReset = _
    rw [State.releaseReset, if_pos h]
    rfl
  · show Host.Outcome.next s.releaseReset = _
    rw [State.releaseReset, if_neg (by rw [h]; exact Bool.false_ne_true)]

end Sys2Proof.Machine
end

section
/-! PROOFS. Every step goes on, and in reset nothing is taken (R148). -/

namespace Sys2Proof.Machine

/-- Each reset row answers with the state it leaves (R148). -/
theorem exec_resetRow_goes_on {c : Instr} (hc : resetRow c = true) (s : State) : ∃ t, exec c s = .next t := by
  cases c <;> simp only [resetRow, Bool.false_eq_true] at hc
  case resetNAssert => exact ⟨s.assertReset, rfl⟩
  case resetNRelease => exact ⟨s.releaseReset, rfl⟩
  case powerOnReset => exact ⟨s.powerOn, rfl⟩

theorem exec_goes_on (c : Instr) (s : State) : ∃ t, exec c s = .next t := by
  cases hd : dueOf c with
  | some d => exact ⟨_, exec_atOnce hd s⟩
  | none =>
    cases hr : resetRow c with
    | false => exact ⟨_, exec_runOf c hd hr s⟩
    | true => exact exec_resetRow_goes_on hr s

theorem step_goes_on (s : State) : SafeStep s := by
  cases hp : s.pending with
  | nil => exact ⟨s.idle, by rw [step, hp]⟩
  | cons c rest =>
    obtain ⟨t, ht⟩ := exec_goes_on c (s.withPending rest)
    exact ⟨t, by rw [step, hp]; exact ht⟩

/-- Settles O3: an at-once row, an ordinary row and a reset row each answer with a state. -/
theorem everyStepGoesOnAndResetHolds : Obligations.EveryStepGoesOnAndResetHolds :=
  ⟨step_goes_on, fun _ _ h hc => exec_in_reset hc h⟩

end Sys2Proof.Machine
end

section
/-! PROOFS. The Mode Engine: the automatic mode changes, the ends of a transition's two phases, and SET_MODE (R139 to R147). -/

namespace Sys2Proof.Machine

/-! ## Automatic changes (R142, R143, R146) -/

section
variable {s : State}

theorem State.expireAutoIdle_of_running (h : s.mode.autoIdle ≠ none) : s.expireAutoIdle = s.beginScan .idle .auto :=
  if_pos (Option.isSome_iff_ne_none.2 h)

theorem State.expireAutoIdle_of_stopped (h : s.mode.autoIdle = none) : s.expireAutoIdle = s :=
  if_neg (by simp [h])

/-- A report in settled IDLE begins the return (R143). -/
theorem State.reportReturn_of_settled (hm : s.mode.mode = .idle) (ht : s.mode.transition = none)
    (hc : s.mode.setMode = none) : s.reportReturn = s.beginScan .active .auto := by
  rw [State.reportReturn, if_pos ⟨hm, hc⟩, ht]

/-- A report with a transition in flight marks the return due if the transition is toward IDLE (R143). -/
theorem State.reportReturn_of_transition {t : Transition} (hm : s.mode.mode = .idle) (ht : s.mode.transition = some t)
    (hc : s.mode.setMode = none) :
    s.reportReturn = { s with mode := { s.mode with returnDue := s.mode.returnDue || t.target == .idle } } := by
  rw [State.reportReturn, if_pos ⟨hm, hc⟩, ht]

/-- A report in another mode, or with a SET_MODE in progress, is ignored (R143). -/
theorem State.reportReturn_of_busy (h : s.mode.mode ≠ .idle ∨ s.mode.setMode ≠ none) : s.reportReturn = s :=
  if_neg (not_and_or.2 h)

/-- A report with a transition toward another mode than IDLE in flight is ignored (R143). -/
theorem State.reportReturn_of_leaving {t : Transition} (ht : s.mode.transition = some t) (hn : t.target ≠ .idle) :
    s.reportReturn = s := by
  by_cases h : s.mode.mode = .idle ∧ s.mode.setMode = none
  · obtain ⟨hm, hc⟩ := h
    rw [State.reportReturn_of_transition hm ht hc, beq_eq_false_iff_ne.2 hn, Bool.or_false]
  · exact State.reportReturn_of_busy (not_and_or.1 h)

end

/-- Settles O44. -/
theorem automaticModeChanges : Obligations.AutomaticModeChanges := by
  refine ⟨fun s hq => ⟨fun h => ?_, fun h => ?_, exec_wakeDwellExpiry hq⟩,
    fun s => ⟨State.reportReturn_of_settled, fun t hm ht htarget hc => ?_, ?_⟩⟩
  · rw [exec_autoIdleExpiry hq, State.expireAutoIdle_of_running h]
    rfl
  · rw [exec_autoIdleExpiry hq, State.expireAutoIdle_of_stopped h]
  · rw [State.reportReturn_of_transition hm ht hc, htarget, beq_self_eq_true, Bool.or_true]
  · rintro (hm | hc | ⟨t, ht, htarget⟩)
    · exact State.reportReturn_of_busy (.inl hm)
    · exact State.reportReturn_of_busy (.inr hc)
    · exact State.reportReturn_of_leaving ht htarget

/-! ## The end of the WAKE phase (R140, R141, R144) -/

theorem WakeOutcome.passes_iff (w : WakeOutcome) : w.passes = true ↔ w = .replied ∨ w = .notQueried := by
  simp [WakeOutcome.passes]

theorem State.wakePassed_iff {s : State} {n : Nat} (hn : s.mode.wakeCount = some n) :
    s.wakePassed = true ↔
      (s.padLink.outcome = .replied ∨ s.padLink.outcome = .notQueried) ∧
        (s.panelLink.outcome = .replied ∨ s.panelLink.outcome = .notQueried) ∧ n = 0 := by
  simp [State.wakePassed, WakeOutcome.passes_iff, hn, and_assoc]

theorem State.wakePhase_isDue {s : State} {t : Transition} {n : Nat} (ht : s.mode.transition = some t)
    (hp : t.phase = .wake) (hpad : s.padLink.outcome ≠ .awaiting) (hpanel : s.panelLink.outcome ≠ .awaiting)
    (hn : s.mode.wakeCount = some n) : s.isDue .wakePhaseEnd = true := by
  simp [State.isDue, State.wakePhaseOver, ht, hp, hpad, hpanel, hn]

/-- The state woken by a transition whose wake pass counted `n` rows: DIAG raised, the SCAN phase begun (R141). -/
def State.woken (s : State) (t : Transition) (n : Nat) : State :=
  State.evaluateScans
    { s.raise (.diag s.padLink.outcome s.panelLink.outcome n (s.mode.toggle ^^ s.wakePassed)) with
      mode := { s.mode with
        mode := t.target, transition := some { t with phase := .scan }, toggle := s.mode.toggle ^^ s.wakePassed,
        dwell := some 50, wakeCount := none } }

/-- Toward DOZE the woken state is quieted as well (R141, R144). -/
theorem State.endWakePhase_of_transition {s : State} {t : Transition} {n : Nat} (ht : s.mode.transition = some t)
    (hn : s.mode.wakeCount = some n) :
    s.endWakePhase =
      if t.target = .doze then (s.woken t n).quiet else s.woken t n := by
  rw [State.endWakePhase, ht]
  simp only [State.woken, State.wokenEngine, State.diagEvent, ht, hn, Option.map_some, Option.getD_some]

/-- Settles O45. -/
theorem wakePhaseEnd : Obligations.WakePhaseEnd := by
  intro s t n hr ht hp hpad hpanel hn
  rw [exec_wakePhaseEnd hr (State.wakePhase_isDue ht hp hpad hpanel hn), State.perform,
    State.endWakePhase_of_transition ht hn]
  refine ⟨s.mode.toggle ^^ s.wakePassed, s.woken t n, fun h => ?_, fun h => ?_, rfl, fun hd => ?_, fun hd => ?_⟩
  · rw [(State.wakePassed_iff hn).2 h, Bool.xor_true]
  · rw [Bool.eq_false_iff.2 (mt (State.wakePassed_iff hn).1 h), Bool.xor_false]
  · rw [if_neg hd]
  · rw [if_pos hd]
    rfl

/-! ## The end of the SCAN phase (R139) -/

theorem ModeEngine.driven_iff (m : ModeEngine) : m.driven = true ↔ ∃ c, m.setMode = some c ∧ c.driving = true := by
  unfold ModeEngine.driven
  cases m.setMode <;> simp

/-- A waiting SET_MODE may start in a settled mode, for SLEEP once no dwell runs (R147). -/
theorem State.setModeReady_iff (s : State) :
    s.setModeReady = true ↔ ∃ c, s.mode.setMode = some c ∧ c.driving = false ∧ s.mode.transition = none ∧
      (c.target ≠ .sleep ∨ s.mode.dwell = none) := by
  unfold State.setModeReady State.settled
  cases s.mode.setMode <;> simp [and_assoc]

theorem State.scanPhase_isDue {s : State} {t : Transition} (ht : s.mode.transition = some t) (hp : t.phase = .scan)
    (hpad : s.padLink.scanChange = false) (hpanel : s.panelLink.scanChange = false) :
    s.isDue .transitionComplete = true := by
  simp [State.isDue, State.scanPhaseOver, ht, hp, hpad, hpanel]

/-- MODE_CHANGED, and then the first that applies of the answer, the waiting start and the return (R139). -/
theorem State.completeTransition_of_transition {s : State} {t : Transition} (ht : s.mode.transition = some t) :
    s.completeTransition =
      (let u := State.raise { s with mode := { s.mode with transition := none } } (.modeChanged s.mode.mode t.cause)
       if s.mode.driven then u.answerSetMode
       else if u.setModeReady then u
       else if s.mode.returnDue then u.takeReturn
       else u) := by
  rw [State.completeTransition, ht]

/-- Settles O46. -/
theorem transitionComplete : Obligations.TransitionComplete := by
  intro s u t hr ht hp hpad hpanel hu
  have hmode : u.mode = { s.mode with transition := none } := by rw [hu]; rfl
  have hexec : exec .transitionComplete s = .next (State.finish
      (if s.mode.driven then u.answerSetMode
       else if u.setModeReady then u
       else if s.mode.returnDue then u.takeReturn
       else u)) := by
    rw [exec_transitionComplete hr (State.scanPhase_isDue ht hp hpad hpanel), State.perform,
      State.completeTransition_of_transition ht, hu]
  rw [hexec]
  refine ⟨fun c hc hd => ?_, fun c hc hd hs => ?_, fun h => ?_⟩
  · rw [if_pos (s.mode.driven_iff.2 ⟨c, hc, hd⟩), State.answerSetMode, hmode]
  · have hdriven : ¬ s.mode.driven = true := by
      rw [ModeEngine.driven_iff]
      simp [hc, hd]
    have hready : u.setModeReady = true := by
      rw [State.setModeReady_iff, hmode]
      exact ⟨c, hc, hd, rfl, hs⟩
    rw [if_neg hdriven, if_pos hready]
  · have hdriven : ¬ s.mode.driven = true := by
      rw [ModeEngine.driven_iff]
      obtain hnone | ⟨c, hc, hd, -, -⟩ := h
      · simp [hnone]
      · simp [hc, hd]
    have hready : ¬ u.setModeReady = true := by
      rw [State.setModeReady_iff, hmode]
      obtain hnone | ⟨c, hc, -, hs, hdwell⟩ := h
      · simp [hnone]
      · simp [hc, hs, hdwell]
    rw [if_neg hdriven, if_neg hready]
    refine ⟨fun hret => ?_, fun hret => ?_⟩
    · rw [hret]
      rfl
    · rw [hret]
      rfl

/-! ## SET_MODE taken (R147) -/

theorem setModeOf_of_unassigned {p : Bytes} (h : u8At p 0 ≠ 1 ∧ u8At p 0 ≠ 2 ∧ u8At p 0 ≠ 3) : setModeOf p = none := by
  obtain ⟨h1, h2, h3⟩ := h
  unfold setModeOf
  split
  · next hc => exact absurd hc h1
  · next hc => exact absurd hc h2
  · next hc => exact absurd hc h3
  · rfl

/-- The three codes that SET_MODE takes; only the one of ACTIVE carries a delay (R147, 11.4). -/
theorem setModeOf_of_target {p : Bytes} {target : Mode}
    (h : (u8At p 0 = 1 ∧ target = .active) ∨ (u8At p 0 = 2 ∧ target = .doze) ∨ (u8At p 0 = 3 ∧ target = .sleep)) :
    setModeOf p = some {
      target := target, driving := false,
      delay := if u8At p 0 = 1 ∧ u8At p 1 ≠ 0 then some (u8At p 2) else none } := by
  obtain ⟨hc, rfl⟩ | ⟨hc, rfl⟩ | ⟨hc, rfl⟩ := h
  · by_cases hd : u8At p 1 = 0 <;> simp [setModeOf, hc, hd]
  · simp [setModeOf, hc]
  · simp [setModeOf, hc]

/-! ## SET_MODE started (R140, R144, R146, R147) -/

section
variable {s : State} {c : SetMode} {m : Mode}

theorem State.setMode_isDue (hc : s.mode.setMode = some c) (hd : c.driving = false) (ht : s.mode.transition = none)
    (hs : c.target = .sleep → s.mode.dwell = none) : s.isDue .setModeStart = true :=
  s.setModeReady_iff.2 ⟨c, hc, hd, ht, not_or_of_imp hs⟩

theorem State.startSetMode_of_setMode (hc : s.mode.setMode = some c) :
    s.startSetMode = State.drive { s with mode := s.mode.started c } c.target := by
  rw [State.startSetMode, hc]

theorem State.drive_of_same (h : s.mode.mode = m) : s.drive m = s.answerSetMode := if_pos h

theorem State.drive_of_sleep (h : s.mode.mode = .sleep) (hm : m ≠ .sleep) : s.drive m = s.beginWake m :=
  (if_neg (by rw [h]; exact hm.symm)).trans (if_pos h)

theorem State.drive_active (hs : s.mode.mode ≠ .sleep) (h : s.mode.mode ≠ .active) :
    s.drive .active = s.beginScan .active .command := (if_neg h).trans (if_neg hs)

theorem State.drive_doze (hs : s.mode.mode ≠ .sleep) (h : s.mode.mode ≠ .doze) : s.drive .doze = s.beginDoze :=
  (if_neg h).trans (if_neg hs)

theorem State.drive_sleep (h : s.mode.mode ≠ .sleep) : s.drive .sleep = s.beginSleep := (if_neg h).trans (if_neg h)

end

/-- The links as a wake queries them: one whose surface is enabled is sent an ID_QUERY (R140). -/
def Link.queried (l : Link) (enabled : Bool) : Link :=
  if enabled = true then Link.originate { l with outcome := .awaiting } .idQuery else { l with outcome := .notQueried }

theorem State.queryLink_eq (s : State) (l : Surface) : s.queryLink l = s.setLink l ((s.link l).queried (s.enabled l)) := rfl

theorem State.beginWake_eq (s : State) (m : Mode) :
    s.beginWake m = { s with
      padLink := s.padLink.queried s.command.enables.pad, panelLink := s.panelLink.queried s.command.enables.panel,
      mode := { s.mode with
        mode := .waking, transition := some { target := m, phase := .wake, cause := .command }, wakeCount := none },
      store := { s.store with verify := some .wake } } := by
  rw [State.beginWake, State.queryLink_eq, State.queryLink_eq]
  rfl

/-- A link UP that goes OFF loses its pass-down packets, each with its event (R8, R14). -/
theorem State.enterOff_of_up {s : State} {l : Surface} (h : (s.link l).state = .up) :
    s.enterOff l = { s.setLink l { s.link l with state := .off, watch := none, passDown := [] } with
      queue := s.queue.raiseAll ((s.link l).passDown.map (fun _ => .passDrop l .linkOff)) } := by
  rw [State.enterOff, if_pos h, if_pos h]
  rfl

theorem State.enterOff_of_not_up {s : State} {l : Surface} (h : (s.link l).state ≠ .up) :
    s.enterOff l = s.setLink l { s.link l with state := .off, watch := none } := by
  rw [State.enterOff, if_neg h, if_neg h]
  rfl

/-- Settles O47: what is taken by the code, and what a start does by the settled mode and the target. -/
theorem setModeTakenAndStarted : Obligations.SetModeTakenAndStarted := by
  refine ⟨fun p s hr hl => ⟨fun h => ?_, fun target h => ?_⟩, fun s u c hr hc hd ht hs hu => ?_⟩
  · rw [exec_setMode hr p (beq_iff_eq.2 hl), State.runSetMode, setModeOf_of_unassigned h]
    rfl
  · rw [exec_setMode hr p (beq_iff_eq.2 hl), State.runSetMode, setModeOf_of_target h]
    rfl
  · have hexec : exec .setModeStart s = .next (u.drive c.target).finish := by
      rw [exec_setModeStart hr (State.setMode_isDue hc hd ht hs), State.perform, State.startSetMode_of_setMode hc, hu]
      rfl
    have hmode : u.mode.mode = s.mode.mode := by rw [hu]
    rw [hexec, ← hmode]
    refine ⟨fun h => ?_, fun h hm => ?_, fun h hm htarget => ?_,
      fun v hv => ⟨fun h hm htarget => ?_, fun h htarget => ?_⟩, fun v l => State.enterOff_of_up,
      fun v l => State.enterOff_of_not_up⟩
    · rw [State.drive_of_same h, State.answerSetMode, h]
    · refine ⟨_, _, rfl, rfl, ?_⟩
      rw [State.drive_of_sleep h hm, State.beginWake_eq, hu]
      rfl
    · rw [htarget, State.drive_active h hm]
      rfl
    · rw [htarget, State.drive_doze h hm, hv, htarget]
      rfl
    · rw [htarget, State.drive_sleep h, hv, htarget]
      rfl

end Sys2Proof.Machine
end

section
/-! PROOFS. The Report Queue: its bound and its line through every step (R153, R155), the entry of events, responses and
data records (R152 to R157, R159, R160), what a RESYNC record restates (R158), and a waiting response (R160). -/

namespace Sys2Proof.Machine

/-! ## The bound and the line through every step (R153, R155) -/

theorem QueueInv.reset : QueueInv ReportQueue.reset := by decide

/-- The emptied queue takes the response, and the read of row 0 may raise TABLE_FAULT (R43, R163, R172). -/
theorem QueueInv.softResetEffect (s : State) : QueueInv s.softResetEffect.queue :=
  (QueueInv.respond (s := { s.resetKeeping s.store.afterSoftReset s.mode.toggle with
    port := { transfer := s.port.transfer.outlived, errors := 0 } }) QueueInv.reset _ _ _).readPosture

theorem QueueInv.releaseReset {s : State} (h : QueueInv s.queue) : QueueInv s.releaseReset.queue := by
  unfold State.releaseReset
  split
  · exact h.readPosture
  · exact h

theorem State.assertReset_queue (s : State) : s.assertReset.queue = ReportQueue.reset := rfl

theorem State.powerOn_queue (s : State) : s.powerOn.queue = ReportQueue.reset := rfl

theorem QueueInv.perform {s : State} (h : QueueInv s.queue) (d : Due) : QueueInv (s.perform d).queue := by
  by_cases hr : d = .softReset
  · subst hr
    exact QueueInv.softResetEffect s
  · exact (perform_keeps s d hr).queue h

theorem QueueInv.effectOf {s : State} (h : QueueInv s.queue) (c : Instr) : QueueInv (effectOf c s).queue := by
  by_cases hb : ∃ who, c = .slotRequest who
  · obtain ⟨who, rfl⟩ := hb
    obtain ⟨hqueue, -⟩ := allocate_keeps s who
    exact hqueue h
  · exact (effectOf_keeps c (fun who hc => hb ⟨who, hc⟩) s).queue h

/-- Settles O10: every at-once step, effect and entry keeps the bound and the line, and the resets empty the queue. -/
theorem reportQueueKept : Obligations.ReportQueueKept := by
  intro s t h hs
  refine step_keeps (P := fun s => QueueInv s.queue) (fun s d h _ => h.perform d) (fun s h => h.finish)
    (fun c s h => h.effectOf c) (fun s _ => ?_) (fun s h => h.releaseReset) (fun s _ => ?_) (fun s q h => ?_)
    (fun s h => (Moves.enterWaiting s).queue h) h hs
  · rw [State.assertReset_queue]
    exact QueueInv.reset
  · rw [State.powerOn_queue]
    exact QueueInv.reset
  · rwa [State.withPending_queue]

/-! ## Events and responses (R152, R159, R160) -/

/-- A RESPONSE draws attention always, so its entry asserts the line (R153). -/
theorem ReportQueue.enter_response (q : ReportQueue) (r : Response) :
    q.enter (.response r) = { q with records := q.records ++ [.response r], attn := true } := by
  have hline : (q.records ++ [Record.response r]).any (Record.draws q.attentionMask) = true := by
    rw [List.any_append]
    exact Bool.or_true _
  rw [ReportQueue.enter, ReportQueue.evaluate, ReportQueue.drawsAttention, hline]

theorem State.answered_of_room {s : State} (h : s.queue.records.length < 48) (c : Command) (v : Status) (r : Bytes) :
    s.answered c v r = { s with
      queue := s.queue.enter (.response { kind := c.code, status := v, result := r }),
      command := { s.command with slot := none } } := by
  rw [State.answered, State.respond, State.occupy_queue, ReportQueue.offerResponse, if_pos h, if_pos h]
  rfl

theorem State.answered_of_full {s : State} (h : 48 ≤ s.queue.records.length) (c : Command) (v : Status) (r : Bytes) :
    s.answered c v r = { s with
      queue := { s.queue with waiting := some { kind := c.code, status := v, result := r } },
      command := { s.command with slot := some c.code } } := by
  rw [State.answered, State.respond, State.occupy_queue, ReportQueue.offerResponse, if_neg (Nat.not_lt.2 h),
    if_neg (Nat.not_lt.2 h)]
  rfl

/-- Settles O7. -/
theorem eventAndResponseEntry : Obligations.EventAndResponseEntry := by
  refine ⟨fun s e => ⟨fun hm => ?_, fun hm hl => ?_, fun hm hl => ?_⟩, fun s c v r => ⟨fun hl => ?_, fun hl => ?_⟩⟩
  · rw [State.raise, ReportQueue.raise_masked hm]
  · rw [State.raise, ReportQueue.raise_room hm hl]
    rfl
  · rw [State.raise, ReportQueue.raise_full hm (Nat.not_lt.2 hl)]
    rfl
  · rw [State.answered_of_room hl, ReportQueue.enter_response]
  · exact State.answered_of_full hl c v r

/-! ## Data records (R155 to R157) -/

section
variable {q : ReportQueue} {d : DataStream}

theorem ReportQueue.offerData_of_room (h : q.resync d = none) (hl : q.records.length < 40)
    (restate : DataStream → Restated) (r : Record) : q.offerData restate d r = (q.enter r, false) := by
  rw [ReportQueue.offerData, h]
  exact if_pos hl

/-- The first record refused starts the resync (R155, R156). -/
theorem ReportQueue.offerData_of_full (h : q.resync d = none) (hl : 40 ≤ q.records.length)
    (restate : DataStream → Restated) (r : Record) : q.offerData restate d r = (q.setResync d (some 1), false) := by
  rw [ReportQueue.offerData, h]
  exact if_neg (Nat.not_lt.2 hl)

/-- In resync a record is refused and counted above 32 records (R156). -/
theorem ReportQueue.offerData_of_resync {n : Nat} (h : q.resync d = some n) (hl : 32 < q.records.length)
    (restate : DataStream → Restated) (r : Record) :
    q.offerData restate d r = (q.setResync d (some (min 65535 (n + 1))), false) := by
  rw [ReportQueue.offerData, h]
  exact if_neg (Nat.not_le.2 hl)

/-- A RESYNC record takes the place of the record, and the stream leaves resync (R157). -/
theorem ReportQueue.offerData_of_leaving {n : Nat} (h : q.resync d = some n) (hl : q.records.length ≤ 32)
    (restate : DataStream → Restated) (r : Record) :
    q.offerData restate d r = ((q.enter (.resync n (restate d))).setResync d none, true) := by
  rw [ReportQueue.offerData, h]
  exact if_pos hl

/-- No RESYNC record enters while the stream is out of resync or the queue holds more than 32 records. -/
theorem ReportQueue.offerData_not_taken (h : ∀ n, q.resync d = some n → 32 < q.records.length)
    (restate : DataStream → Restated) (r : Record) : (q.offerData restate d r).2 = false := by
  cases hn : q.resync d with
  | none =>
    obtain hl | hl := Nat.lt_or_ge q.records.length 40
    · rw [ReportQueue.offerData_of_room hn hl]
    · rw [ReportQueue.offerData_of_full hn hl]
  | some n => rw [ReportQueue.offerData_of_resync hn (h n hn)]

theorem ReportQueue.offerAll_absorbed {absorbed : List DataStream} (h : d ∈ absorbed) (restate : DataStream → Restated)
    (r : Record) (rest : List Offer) :
    ReportQueue.offerAll restate (.data d r :: rest) absorbed q = ReportQueue.offerAll restate rest absorbed q :=
  if_pos h

theorem ReportQueue.offerAll_data {absorbed : List DataStream} (h : d ∉ absorbed) (restate : DataStream → Restated)
    (r : Record) (rest : List Offer) :
    ReportQueue.offerAll restate (.data d r :: rest) absorbed q =
      ReportQueue.offerAll restate rest (if (q.offerData restate d r).2 then d :: absorbed else absorbed)
        (q.offerData restate d r).1 :=
  if_neg h

/-- A group of one data record has that record's effect. -/
theorem ReportQueue.offerAll_single (restate : DataStream → Restated) (r : Record) (q : ReportQueue) :
    ReportQueue.offerAll restate [.data d r] [] q = (q.offerData restate d r).1 :=
  ReportQueue.offerAll_data List.not_mem_nil restate r []

theorem State.offer_single (s : State) (d : DataStream) (r : Record) :
    s.offer [.data d r] = { s with queue := (s.queue.offerData s.restate d r).1 } := by
  rw [State.offer, ReportQueue.offerAll_single]

end

/-- Settles O8: a record offered alone by the stream's resync state and the queue's length, and a group member by
member. -/
theorem dataRecordEntry : Obligations.DataRecordEntry := by
  refine ⟨fun s d r => ?_, fun restate absorbed rest q => ⟨rfl, fun e => rfl,
    fun d r h => ReportQueue.offerAll_absorbed h restate r rest, fun d r n h hn hl => ?_, fun d r h hl => ?_⟩⟩
  · rw [State.offer_single]
    refine ⟨fun h hl => ?_, fun h hl => ?_, fun n h hl => ?_, fun n h hl => ?_⟩
    · rw [ReportQueue.offerData_of_room h hl]
    · rw [ReportQueue.offerData_of_full h hl]
    · rw [ReportQueue.offerData_of_resync h hl]
    · rw [ReportQueue.offerData_of_leaving h hl]
  · rw [ReportQueue.offerAll_data h, ReportQueue.offerData_of_leaving hn hl]
    rfl
  · rw [ReportQueue.offerAll_data h, ReportQueue.offerAll_single, ReportQueue.offerData_not_taken hl]
    rfl

/-! ## What a RESYNC record restates (R158) -/

theorem Context.activeCode_of_active {c : Context} {w : Winner} (h : c.state = .active) (hw : c.winner = some w) :
    c.activeCode = w.rule.code := by
  rw [Context.activeCode, if_pos h, hw]
  rfl

theorem Context.activeCode_of_not_active {c : Context} (h : c.state ≠ .active) : c.activeCode = 0 := if_neg h

theorem resyncContacts_pairwise (slots : List (Option Track)) :
    (resyncContacts slots).Pairwise (fun c c' => c.id ≤ c'.id) :=
  (sortById_pairwise _).map _ fun _ _ h => h

theorem mem_resyncContacts_iff (slots : List (Option Track)) (c : Contact) :
    c ∈ resyncContacts slots ↔ ∃ t, some t ∈ slots ∧ t.surface = .panel ∧ t.state = .live ∧ t.endMark = false ∧
      c = { id := t.id, x := t.x, y := t.y, area := t.area } := by
  simp only [resyncContacts, List.mem_map, (sortById_perm _).mem_iff, List.mem_filter, mem_tracksOf_iff,
    Bool.and_eq_true, beq_iff_eq, Bool.not_eq_true', and_assoc, eq_comm (a := c)]

/-- Settles O9. -/
theorem restatedState : Obligations.RestatedState := by
  refine fun s => ⟨⟨_, rfl, fun _ => Context.activeCode_of_active, Context.activeCode_of_not_active⟩,
    ⟨_, _, rfl, fun _ => Context.activeCode_of_active, Context.activeCode_of_not_active, resyncContacts_pairwise _,
      mem_resyncContacts_iff _⟩, ?_⟩
  rw [State.restate]
  cases s.pen.state <;> rfl

/-! ## A step on an empty queue (R160; log entries 1 and 3) -/

theorem step_of_empty {s : State} (h : s.pending = []) : step s = .next s.idle := by
  rw [step, h]

theorem State.idle_in_reset {s : State} (h : s.inReset = true) : s.idle = s := if_pos h

theorem State.idle_of_due {s : State} (hr : s.inReset = false) (hd : s.nextDue ≠ none) : s.idle = s.settle := by
  rw [State.idle, if_neg (by simp [hr]), if_pos (Option.isSome_iff_ne_none.2 hd)]

theorem State.idle_of_none {s : State} (hr : s.inReset = false) (hd : s.nextDue = none) : s.idle = s.enterWaiting := by
  rw [State.idle, if_neg (by simp [hr]), if_neg (by simp [hd])]

/-! ## The entry of a waiting response (R160) -/

theorem State.entryDue_eq_false_iff (s : State) :
    s.entryDue = false ↔ s.queue.waiting = none ∨ 48 ≤ s.queue.records.length := by
  simp [State.entryDue, imp_iff_not_or]

theorem State.finish_entryDue (s : State) : s.finish.entryDue = s.entryDue := rfl

/-- Before a row of the host link a response that has room has entered (R160). -/
theorem runOf_portRow {c : Instr} (hc : portRow c = true) (s : State) : runOf c s = effectOf c s.enterWaiting := by
  simp [runOf, hc]

/-- No row of the host link is an at-once row or a reset row. -/
theorem dueOf_resetRow_of_portRow {c : Instr} (hc : portRow c = true) : dueOf c = none ∧ resetRow c = false := by
  cases c <;> simp only [portRow, controlOf, Option.isSome_none, reduceCtorEq] at hc <;> exact ⟨rfl, rfl⟩

/-- A host link's row acts as it acts once a response that has room has entered. -/
theorem exec_portRow_enterWaiting {c : Instr} (hc : portRow c = true) {s : State} (hr : s.inReset = false)
    (hd : s.nextDue = none) : exec c s = exec c s.enterWaiting := by
  obtain ⟨hdue, hreset⟩ := dueOf_resetRow_of_portRow hc
  have hexec := exec_runOf c hdue hreset
  rw [hexec, hexec, afterDue_of_none hr hd,
    afterDue_of_none (s.enterWaiting_inReset.trans hr) (s.enterWaiting_nextDue.trans hd), runOf_portRow hc,
    runOf_portRow hc, State.enterWaiting_of_not_due s.enterWaiting_entryDue]

/-- A command whose run finds a response with room lets it in, at the latest after its own events (R160). -/
theorem runOf_entryDue {c : Instr} (hc : portRow c = false) {s : State} (h : s.entryDue = true) :
    (runOf c s).entryDue = false := by
  by_cases hq : c = .queuedResponseEntry
  · subst hq
    exact s.enterWaiting_entryDue
  · have hrun : runOf c s = (effectOf c s).enterWaiting := by simp [runOf, State.beforeEntry, hc, hq, h]
    rw [hrun]
    exact (effectOf c s).enterWaiting_entryDue

theorem exec_entryDue {c : Instr} (hdue : dueOf c = none) (hreset : resetRow c = false) (hc : portRow c = false)
    {s t : State} (hr : s.inReset = false) (hd : s.nextDue = none) (h : s.entryDue = true) (ht : exec c s = .next t) :
    t.entryDue = false := by
  rw [exec_runOf c hdue hreset, afterDue_of_none hr hd] at ht
  obtain rfl : (runOf c s).finish = t := Host.Outcome.next.inj ht
  rw [State.finish_entryDue]
  exact runOf_entryDue hc h

/-! ## WAKE in settled DOZE (R145, R160) -/

section
variable {s : State} {l : Surface} {bs p : Bytes}

/-- The event of a reported WAKE comes before the response that waits (R160, log entry 3). -/
theorem exec_wake_of_entry (hr : s.inReset = false) (hd : s.nextDue = none) (he : s.entryDue = true)
    (hp : Carries bs kindWake p) : exec (.wake l bs) s = .next (s.wakeArrives l).enterWaiting.finish :=
  (ordinary_of_entry hr hd he fun t => t.packetArrives l bs).trans
    (by rw [State.packetArrives_of_carries hp, State.sortPacket_wake])

theorem State.wakeArrives_of_doze (hm : s.mode.mode = .doze) (ht : s.mode.transition = none)
    (hs : s.mode.setMode = none) (hl : s.enabled l = true) :
    s.wakeArrives l = (s.raise (.wake l)).beginScan .active .wake :=
  if_pos ⟨hm, by simp [State.settled, ht], hs, hl⟩

/-- Then the queue has the WAKE event at its tail. -/
theorem State.wakeArrives_of_reported (hm : s.mode.mode = .doze) (ht : s.mode.transition = none)
    (hs : s.mode.setMode = none) (hl : s.enabled l = true) (hk : s.queue.reportMask.getLsbD (Event.wake l).kind = true)
    (hroom : s.queue.records.length < 48) :
    s.wakeArrives l = State.evaluateScans { s with
      queue := s.queue.enter (.event (.wake l)), mode := s.mode.starting .active .wake } := by
  rw [State.wakeArrives_of_doze hm ht hs hl, State.raise, ReportQueue.raise_room hk hroom]
  rfl

end

/-- Settles O2: what idles, what QUEUED_RESPONSE_ENTRY lets in, and in which order a response that has room and a
command's events enter. -/
theorem emptyQueueAndWaitingResponse : Obligations.EmptyQueueAndWaitingResponse := by
  refine ⟨fun s hp => ?_, fun s hq => ?_, fun s entered r hr hd hw hl hentered => ?_⟩
  · rw [step_of_empty hp]
    refine ⟨fun hr => ?_, fun hr hd => ?_, fun hr hd h => ?_, fun r hr hd hw hl => ?_⟩
    · rw [State.idle_in_reset hr]
    · rw [State.idle_of_due hr hd]
    · rw [State.idle_of_none hr hd, State.enterWaiting_of_not_due (s.entryDue_eq_false_iff.2 h)]
    · rw [State.idle_of_none hr hd, State.enterWaiting_of_room hw hl]
  · obtain ⟨hr, hd, he⟩ := hq
    exact ⟨s.entryDue_eq_false_iff.1 he,
      by rw [exec_queuedResponseEntry hr hd, State.enterWaiting_of_not_due he]⟩
  · have he : s.entryDue = true := s.entryDue_iff.2 ⟨r, hw, hl⟩
    have henter : s.enterWaiting = entered := by
      rw [State.enterWaiting_of_room hw hl, ReportQueue.enter_response, hentered]
    refine ⟨?_, fun c hc => ?_, fun c t hdue hreset hc ht => ?_, fun l bs p u hb hm ht hs hen hk hu => ?_⟩
    · rw [exec_queuedResponseEntry hr hd, henter]
    · rw [exec_portRow_enterWaiting hc hr hd, henter]
    · exact t.entryDue_eq_false_iff.1 (exec_entryDue hdue hreset hc hr hd he ht)
    · have hwake : s.wakeArrives l = u := (State.wakeArrives_of_reported hm ht hs hen hk hl).trans hu.symm
      have hwaiting : u.queue.waiting = some r := by
        rw [hu, State.evaluateScans_queue]
        exact hw
      have hlength : u.queue.records.length = s.queue.records.length + 1 := by
        rw [hu, State.evaluateScans_queue]
        exact List.length_append
      rw [exec_wake_of_entry hr hd he hb, hwake]
      refine ⟨fun h47 => ?_, fun h47 => ?_⟩
      · rw [State.enterWaiting_of_not_due (u.entryDue_eq_false_iff.2 (.inr (by omega)))]
      · rw [State.enterWaiting_of_room hwaiting (by omega)]

end Sys2Proof.Machine
end

section
/-! PROOFS. SET_NOTICES: the masks it sets, what each setting governs, and their values after a reset (R151 to R153, R174);
and CLEAR_COUNTERS (R175). -/

namespace Sys2Proof.Machine

/-! ## The masks of a payload (R174) -/

/-- The `w` settings of a mask are the low `w` bits of the number sent. -/
theorem ofNat_eq_of_testBit {w n : Nat} {mask : BitVec w} (h : ∀ i < w, mask.getLsbD i = n.testBit i) :
    BitVec.ofNat w n = mask := by
  refine BitVec.eq_of_getLsbD_eq fun i hi => ?_
  rw [h i hi, BitVec.getLsbD_ofNat, decide_eq_true hi, Bool.true_and]

theorem ReportQueue.withMasks_eq {p : Bytes} {report : BitVec 14} {attention : BitVec 18}
    (hreport : ∀ i < 14, report.getLsbD i = (u16At p 0).testBit i)
    (hattention : ∀ i < 18, attention.getLsbD i = (u32At p 2).testBit i) (q : ReportQueue) :
    q.withMasks p = { q with
      reportMask := report, attentionMask := attention, attn := q.records.any (Record.draws attention) } := by
  rw [ReportQueue.withMasks, ofNat_eq_of_testBit hreport, ofNat_eq_of_testBit hattention]
  rfl

/-! ## The settings of the attention mask (11.4, R153) -/

/-- Every record but a RESPONSE is governed by one setting. -/
theorem Record.attentionBit_eq_none_iff (r : Record) : r.attentionBit = none ↔ ∃ y, r = .response y := by
  cases r <;> simp [Record.attentionBit]

theorem Record.draws_zero_iff (r : Record) : Record.draws 0#18 r = true ↔ ∃ y, r = .response y := by
  rw [← Record.attentionBit_eq_none_iff, Record.draws]
  cases r.attentionBit <;> simp

theorem Event.kind_lt (e : Event) : e.kind < 14 := by
  cases e <;> simp [Event.kind]

/-- An event is sent with its kind as the first byte. -/
theorem Event.toNat_code {e : Event} {code : Byte} (h : (Record.payload (.event e)).head? = some code) :
    code.toNat = e.kind := by
  obtain rfl : BitVec.ofNat 8 e.kind = code := Option.some.inj h
  rw [BitVec.toNat_ofNat, Nat.mod_eq_of_lt (Nat.lt_trans e.kind_lt (by decide))]

/-! ## The masks after a reset (R163) -/

/-- Every event kind is reported and every record draws attention. -/
def ReportQueue.MasksFull (q : ReportQueue) : Prop :=
  q.reportMask = BitVec.allOnes 14 ∧ q.attentionMask = BitVec.allOnes 18

theorem ReportQueue.MasksFull.reset : ReportQueue.reset.MasksFull := ⟨rfl, rfl⟩

theorem ReportQueue.MasksFull.raise {q : ReportQueue} (h : q.MasksFull) (e : Event) : (q.raise e).MasksFull := by
  unfold ReportQueue.raise
  split
  · split <;> exact h
  · exact h

theorem ReportQueue.MasksFull.offerResponse {q : ReportQueue} (h : q.MasksFull) (r : Response) :
    (q.offerResponse r).MasksFull := by
  unfold ReportQueue.offerResponse
  split <;> exact h

theorem ReportQueue.MasksFull.readPosture {s : State} (h : s.queue.MasksFull) : s.readPosture.queue.MasksFull := by
  rw [State.readPosture, State.readActive, State.afterRead]
  dsimp only
  split
  · exact h.raise _
  · exact h

/-- Neither the response nor the read of row 0 that follow the reset of the queue touches the masks (R43, R172). -/
theorem State.softResetEffect_masksFull (s : State) : s.softResetEffect.queue.MasksFull :=
  ReportQueue.MasksFull.readPosture
    (s := State.respond _ Command.softReset.code .done []) (ReportQueue.MasksFull.reset.offerResponse _)

/-- Settles O54: a refusal is the command slot's, both masks are the payload's bits, each record's setting is a case of its
form, and every reset ends in full masks. -/
theorem setNotices : Obligations.SetNotices := by
  obtain ⟨-, -, -, hbadLength, -⟩ := commandSlot
  refine ⟨fun p s => ⟨fun hr hl => ?_, fun hr hbusy => ?_⟩, fun p s report attention hr hl hreport hattention => ?_,
    fun s e hmask => ?_, fun r x mask => ⟨rfl, r.draws_zero_iff⟩,
    fun mask => ⟨fun _ _ _ => rfl, fun _ _ => rfl, fun _ _ => rfl, fun _ _ _ _ _ _ => ⟨rfl, rfl⟩, fun _ _ _ => rfl,
      fun e code hcode => ?_, fun _ _ _ => rfl, fun _ _ _ _ => rfl, fun _ _ _ => rfl⟩, fun c s t hc ht => ?_⟩
  · exact hbadLength (.setNotices p) .setNotices p s rfl hr (beq_false_of_ne hl)
  · exact Governed.exec_of_busy (cmd := .setNotices) (.inl ⟨p, rfl, rfl⟩) hr (s.slotBusy_iff.2 hbusy)
  · rw [exec_setNotices hr p (beq_iff_eq.2 hl), State.runSetNotices, State.occupy_queue,
      ReportQueue.withMasks_eq hreport hattention]
    rfl
  · rw [State.raise, ReportQueue.raise_masked hmask]
  · rw [Event.toNat_code hcode]
    exact ⟨e.kind_lt, rfl⟩
  · obtain ⟨rfl, hreset, hdue⟩ | rfl | rfl := hc
    · rw [exec_softResetEffect hreset hdue] at ht
      cases ht
      exact s.softResetEffect_masksFull
    · cases ht
      exact ReportQueue.MasksFull.reset
    · cases ht
      exact ReportQueue.MasksFull.reset

/-! ## CLEAR_COUNTERS (R175) -/

/-- Settles O55: the counters go to 0 in the occupied slot, which changes none of the fields they stand in. -/
theorem clearCounters : Obligations.ClearCounters := by
  intro s hr
  rw [exec_clearCounters hr [] rfl, State.runClearCounters]
  rfl

end Sys2Proof.Machine
end

section
/-! PROOFS. PASS_UP of a payload too long for a record, and the codes and details of the events (R177). -/

namespace Sys2Proof.Machine

/-! ## Payloads too long to pass up (R177) -/

/-- A PASSUP record adds two bytes to the payload, so 254 bytes and more cannot be carried. -/
theorem State.passUpArrives_of_tooLong {p : Bytes} (h : 253 < p.length) (s : State) (l : Surface) (k : BitVec 6) :
    s.passUpArrives l k p = s.raise (.passDrop l .length) := if_neg (Nat.not_le.2 h)

/-! ## The codes of an event's details (R177) -/

/-- A value's code stands beside it in any table that lists the codes right. -/
theorem code_eq_of_mem {α : Type} {code : α → Nat} {rows : List (α × Nat)} {a : α} {n : Nat} (hm : (a, n) ∈ rows)
    (hrows : ∀ row ∈ rows, code row.1 = row.2) : code a = n := hrows (a, n) hm

theorem linkCode_eq {link : Surface → Nat} (hpad : link .pad = 1) (hpanel : link .panel = 2) : link = linkCode :=
  funext fun
    | .pad => hpad
    | .panel => hpanel

theorem tableCode_eq {table : Table → Nat} (hposture : table .posture = 0) (hzone : table .zone = 1)
    (hcls : table .cls = 2) (hgesture : table .gesture = 3) (hpen : table .pen = 4) : table = tableCode :=
  funext fun
    | .posture => hposture
    | .zone => hzone
    | .cls => hcls
    | .gesture => hgesture
    | .pen => hpen

/-- LINK_ERROR carries a count of bytes for SHORT alone. -/
theorem LinkErrorReason.fields_of_mem {r : LinkErrorReason} {n k : Nat}
    (h : (r, n, k) ∈ [(LinkErrorReason.short k, 0, k), (.crc, 1, 0), (.badFirst, 2, 0), (.channel, 3, 0)]) :
    r.code = n ∧ r.collected = k := by
  simp only [List.mem_cons, Prod.mk.injEq, List.not_mem_nil, or_false] at h
  obtain ⟨rfl, rfl, -⟩ | ⟨rfl, rfl, rfl⟩ | ⟨rfl, rfl, rfl⟩ | ⟨rfl, rfl, rfl⟩ := h <;> exact ⟨rfl, rfl⟩

/-- An event is reported by the bit of the report mask that its first byte numbers. -/
theorem ReportQueue.reports_eq_getLsbD {e : Event} {code : Byte} (h : (Record.payload (.event e)).head? = some code)
    (q : ReportQueue) : q.reports e = q.reportMask.getLsbD code.toNat := by
  rw [ReportQueue.reports, Event.toNat_code h]

/-- Settles O17: the length alone decides a pass-up, the bit of the report mask is the first byte sent, and each row of
R177's table is an event's kind and the codes of its detail. -/
theorem passUpTooLongAndEventCodes : Obligations.PassUpTooLongAndEventCodes := by
  refine ⟨fun l bs p k s hq hc hk => ?_, fun q e code h => q.reports_eq_getLsbD h,
    fun link table sent hpad hpanel hposture hzone hcls hgesture hpen hsent => ?_⟩
  · rw [exec_carries (c := .passUp l bs) rfl hq hc, State.sortPacket_passUp hk]
    refine ⟨fun hlong => ?_, fun hfits => ?_⟩
    · rw [State.passUpArrives_of_tooLong hlong]
    · rw [State.passUpArrives_of_length hfits]
  · obtain rfl := linkCode_eq hpad hpanel
    obtain rfl := tableCode_eq hposture hzone hcls hgesture hpen
    obtain rfl : sent = fun e => Record.payload (.event e) := funext hsent
    refine ⟨fun _ => ⟨rfl, rfl⟩, fun _ c n hn => ?penLeave, fun m c n k hn hk => ?modeChanged, fun _ => ⟨rfl, rfl⟩,
      fun a b _ toggle n k hn hk => ?diag, fun _ c n hn => ?linkStall, fun _ _ => rfl,
      fun f _ n hn => ?frameOverrun, fun _ bank _ n hn => ?tableFault, fun _ _ _ => rfl,
      fun _ r n hn => ?passDrop, fun r n k h => ?linkError⟩
    case penLeave =>
      obtain rfl : c.code = n := code_eq_of_mem hn (by decide)
      rfl
    case modeChanged =>
      obtain rfl : m.code = n := code_eq_of_mem hn (by decide)
      obtain rfl : c.code = k := code_eq_of_mem hk (by decide)
      rfl
    case diag =>
      obtain rfl : a.code = n := code_eq_of_mem hn (by decide)
      obtain rfl : b.code = k := code_eq_of_mem hk (by decide)
      cases toggle <;> rfl
    case linkStall =>
      obtain rfl : c.code = n := code_eq_of_mem hn (by decide)
      rfl
    case frameOverrun =>
      obtain rfl : f.code = n := code_eq_of_mem hn (by decide)
      rfl
    case tableFault =>
      obtain rfl : bank.code = n := code_eq_of_mem hn (by decide)
      rfl
    case passDrop =>
      obtain rfl : r.code = n := code_eq_of_mem hn (by decide)
      rfl
    case linkError =>
      obtain ⟨rfl, rfl⟩ := LinkErrorReason.fields_of_mem h
      rfl

end Sys2Proof.Machine
end

section
/-! PROOFS. A step with a command waiting (log entry 1). -/

namespace Sys2Proof.Machine

/-- The step of a nonempty queue, as `step_of_empty` gives that of an empty one. -/
theorem step_of_cons {s : State} {c : Instr} {rest : List Instr} (h : s.pending = c :: rest) :
    step s = exec c (s.withPending rest) := by
  rw [step, h]

/-- Settles O1: a command waits, so the step is that of a nonempty queue. -/
theorem stepRunsFrontCommand : Obligations.StepRunsFrontCommand :=
  fun _ _ _ h => step_of_cons h

end Sys2Proof.Machine
end
